-- ==== Sys2Proof/Word.lean ====
section
/-! DEFINITION. The word types of MMEE: 64-bit words and limb vectors (spec/00_scope.md R8, R9). -/

namespace Sys2Proof

/-- A 64-bit unsigned word (R8). Limbs and every host-visible register are words. -/
abbrev Word := BitVec 64

/-- One byte lane of the host bus (spec/20_memory.md R64). -/
abbrev Byte := BitVec 8

/-- A limb vector, least-significant limb first (R9). Its length is the `L` of the rule. -/
abbrev Limbs := List Word

end Sys2Proof
end

