-- ==== Sys2Proof/Syntax.lean ====
section
/-! DEFINITION. The four commands of MMEE, one constructor per row of spec/opcode_table.json, and what a command word decodes to. -/

namespace Sys2Proof

/-- The commands of spec/30_encoding.md R81. No command has an operand field (R80, R84): the operands are
fixed banks and registers, so no constructor carries an argument. -/
inductive Instr where
  /-- MONTMUL, opcode 0x1: one Montgomery product (spec/40_montmul.md R121). -/
  | montmul
  /-- BITLEN, opcode 0x2: the bit-length scan and the window policy (spec/41_bitlen_window.md R145). -/
  | bitlen
  /-- MODEXP4, opcode 0x3: the fixed four-limb exponentiation (spec/42_modexp.md R180). -/
  | modexp4
  /-- MODEXPG, opcode 0x4: the generic-width binary exponentiation (spec/42_modexp.md R182). -/
  | modexpg
  deriving DecidableEq, Repr, Inhabited

/-- The value of `decode` (R82): a command, or ILLEGAL. An ILLEGAL word is accepted like any other and
completes with ERRCODE 1, so it is data that the engine latches, not a failure of the decoder. -/
inductive Decoded where
  | instr (i : Instr)
  | illegal
  deriving DecidableEq, Repr, Inhabited

end Sys2Proof
end

