-- ==== Sys2Proof/WellFormed.lean ====
section
/-! DEFINITION. Which commands and which command words are well formed (spec/30_encoding.md R80, R81, R83). -/

namespace Sys2Proof

/-- Every command is well formed: no command has a field (R80), so there is nothing to check in the syntax.
The checks of R80 and R81 are on the command word, below. -/
def Instr.wellFormed : Instr → Bool
  | .montmul => true
  | .bitlen => true
  | .modexp4 => true
  | .modexpg => true

/-- R80: bits 63:4 of a command word must be zero. -/
def mbzClear (v : Word) : Bool := v.extractLsb' 4 60 == 0

/-- R81: the opcode in bits 3:0 is one of the four that are assigned. -/
def opAssigned (v : Word) : Bool := decide (1 ≤ (v.extractLsb' 0 4).toNat ∧ (v.extractLsb' 0 4).toNat ≤ 4)

/-- A command word that R83 does not list as illegal. -/
def wordWellFormed (v : Word) : Bool := mbzClear v && opAssigned v

end Sys2Proof
end

