-- ==== Sys2Proof/Decode.lean ====
section
/-! DEFINITION. Decoding and encoding of command words (spec/30_encoding.md R80 to R83), and the host's `decodeTableWord`. -/

namespace Sys2Proof

/-- The opcode field OP, bits 3:0 of a command word (R80). -/
def opField (v : Word) : BitVec 4 := v.extractLsb' 0 4

/-- The must-be-zero field, bits 63:4 of a command word (R80). -/
def mbzField (v : Word) : BitVec 60 := v.extractLsb' 4 60

/-- The decode function of R82, total on all 2^64 words. -/
def decode (v : Word) : Decoded :=
  if mbzField v ≠ 0 then .illegal
  else if opField v = 0x1 then .instr .montmul
  else if opField v = 0x2 then .instr .bitlen
  else if opField v = 0x3 then .instr .modexp4
  else if opField v = 0x4 then .instr .modexpg
  else .illegal

/-- The opcode of a command (R81). -/
def Instr.opcode : Instr → BitVec 4
  | .montmul => 0x1
  | .bitlen => 0x2
  | .modexp4 => 0x3
  | .modexpg => 0x4

/-- The command word of a command: OP in bits 3:0, and bits 63:4 zero (R80, R81). -/
def encode (i : Instr) : Word := (0 : BitVec 60) ++ i.opcode

/-- The command word whose bits are `w`, of which the opcode table gives `nbits`: bits from `nbits` up are zero.
A command is one 64-bit word (R80), so the numbering of the opcode table is the word's own. -/
def commandWord (nbits w : Nat) : Word := BitVec.ofNat 64 (w % 2 ^ nbits)

/-- The command that the decoder reads from the command word with bits `w`, `none` where it decodes to ILLEGAL. -/
def decodeTableWord (nbits w : Nat) : Option Instr :=
  match decode (commandWord nbits w) with
  | .instr i => some i
  | .illegal => none

end Sys2Proof
end

