-- ==== Sys2Proof/Machine/Engine.lean ====
section
/-! DEFINITION. The bank names and the internal state of the engine (spec/10_state.md R30, R41 to R46). -/

namespace Sys2Proof.Machine

/-- The five operand banks of R30. -/
inductive BankId where
  | n | rr | a | b | res
  deriving DecidableEq, Repr, Inhabited

/-- `ENG.phase` of R41. It is STATUS.BUSY: the phase is stored, and the bit is computed from it. -/
inductive Phase where
  | idle | busy
  deriving DecidableEq, Repr, Inhabited

/-- A limb vector register of the engine: 16 limbs (R43, R44). -/
abbrev VecReg := Vector Word 16

/-- The engine's internal state (R41 to R46), which the host cannot read (R45).
`op`, `lcount`, `ksel`, `limbCount` and `width` are latched when a command is accepted
(spec/70_reset_and_hazards.md R240). Every field is unspecified between commands. -/
structure Internals where
  /-- ENG.op: the decoded command (R41, R240). -/
  op : Decoded
  /-- The latched CFG.LCOUNT (R240). -/
  lcount : BitVec 5
  /-- The latched CFG.KSEL (R240). -/
  ksel : BitVec 4
  /-- ENG.L, the effective limb count (R41). -/
  limbCount : Nat
  /-- ENG.k, the effective window width (R41). -/
  width : Nat
  /-- ACC[0..17] (R42). -/
  acc : Vector Word 18
  /-- The carry word C (R42). -/
  carry : Word
  /-- The reduction multiplier m (R42). -/
  m : Word
  /-- The row index i (R42). -/
  row : Fin 16
  /-- The column index j (R42). -/
  col : Fin 16
  /-- The comparison result of the conditional subtraction (R46). -/
  ge : Bool
  /-- TBL[0..15] (R43). -/
  tbl : Vector VecReg 16
  /-- The limb cursor, in -1..15 (R44). -/
  li : Int
  /-- The bit cursor (R44). -/
  bi : BitVec 6
  /-- The exponentiation accumulator X (R44). -/
  x : VecReg
  /-- X is still the implicit identity (R44). -/
  isId : Bool
  /-- The current window value (R44). -/
  w : BitVec 5
  /-- The squarings owed, in 0..5 (R44). -/
  nSq : Fin 6
  /-- The Montgomery form of the base (R44). -/
  baseMont : VecReg
  /-- The Montgomery square of baseMont (R44). -/
  g2 : VecReg
  /-- The exponent bit length E (R44). -/
  expLen : BitVec 11
  deriving DecidableEq, Repr, Inhabited

end Sys2Proof.Machine
end

