-- ==== Sys2Proof/Config.lean ====
section
/-! DEFINITION. What an implementation fixes (spec/00_scope.md R7) and the free values (R10, `draw()`). Every constant is opaque: no proof sees its value. -/

namespace Sys2Proof.Config

open Sys2Proof.Machine (BankId Internals)

/-- CLAMP_LCOUNT (R7, spec/30_encoding.md R85): clamp an oversize limb count instead of failing. Log entry 8. -/
opaque clampLcount : Bool

/-- The number of the 4 KiB page that holds the register window. Log entry 8. -/
opaque basePage : Nat

/-- BASE_ADDR, a multiple of 4096 (R7, spec/20_memory.md R68). -/
def baseAddr : Nat := 4096 * basePage

/-- Which rule leaves a result vector undefined: MONTMUL by spec/40_montmul.md R115, the two exponentiations by
spec/42_modexp.md R177, and each where an operand write was in flight by spec/70_reset_and_hazards.md R246. -/
inductive DrawSite where
  | montmul | modexp4 | modexpg
  deriving DecidableEq, Repr

/-- Limb `i` of an undefined result: a free value of the site, the draw counter and the operands. Log entry 7. -/
opaque undefinedLimb (site : DrawSite) (draw : Nat) (operands : List Limbs) (i : Nat) : Word

/-- What limb `i` of a bank holds when nothing has written it since reset number `epoch` (spec/10_state.md R33).
Log entry 2. -/
opaque unwrittenLimb (epoch : Nat) (bk : BankId) (i : Nat) : Word

/-- The data of a read that got a bus error (spec/60_exceptions.md R205). Log entry 7. -/
opaque busErrorData (draw : Nat) : Word

/-- The internal engine fields between commands (spec/10_state.md R41 to R44, item U4). Log entry 3. -/
opaque anyInternals (draw : Nat) : Internals

end Sys2Proof.Config
end

