-- ==== Sys2Proof/Machine/Limbs.lean ====
section
/-! DEFINITION. Limb-vector values, the exact 128-bit column sum and its two halves, and byte lanes (spec/00_scope.md R8, R9, R11; spec/20_memory.md R64). -/

namespace Sys2Proof.Machine

/-- The value of a limb vector, least-significant limb first (R9). -/
def val : Limbs → Nat
  | [] => 0
  | w :: ws => w.toNat + 2 ^ 64 * val ws

/-- The Montgomery radix `R = 2^(64·L)` (R9). -/
def radix (l : Nat) : Nat := 2 ^ (64 * l)

/-- The limb vector of length `l` whose value is `x mod R` (R9). -/
def vecL : (l : Nat) → (x : Nat) → Limbs
  | 0, _ => []
  | l + 1, x => BitVec.ofNat 64 x :: vecL l (x / 2 ^ 64)

/-- `one_L`: limb 0 is 1 and every other limb is 0 (R9). -/
def oneL (l : Nat) : Limbs := vecL l 1

/-- The multiply-accumulate primitive `t + x·y + c` as an exact integer (R11). -/
def mac (t x y c : Word) : Nat := t.toNat + x.toNat * y.toNat + c.toNat

/-- Bits 127:64 of a column sum (R8, R11). -/
def hi64 (s : Nat) : Word := BitVec.ofNat 64 (s / 2 ^ 64)

/-- Bits 63:0 of a column sum (R8, R11). -/
def lo64 (s : Nat) : Word := BitVec.ofNat 64 s

/-- Byte lane `k` of a word: bits 8k+7 to 8k (R64, little-endian). -/
def byteLane (v : Word) (k : Nat) : Byte := v.extractLsb' (8 * k) 8

end Sys2Proof.Machine
end

