-- ==== Sys2Proof/Machine/State.lean ====
section
/-! DEFINITION. The state of MMEE as plain data (spec/10_state.md), its faults and refusals, and the state after reset (spec/70_reset_and_hazards.md R230, R231). -/

namespace Sys2Proof.Machine

/-- Why a step stops with a fault. -/
inductive Fault where
  /-- Raised by `hostAccess` (Machine/Bus.lean) for a bus access whose address lies outside the 4 KiB register window,
  the block's one address space (spec/20_memory.md R60). Safe: the model stops, and the platform's other
  addresses have no meaning here. Log entry 10. -/
  | outsideWindow
  deriving DecidableEq, Repr

/-- Why a step refuses. -/
inductive Refusal where
  /-- Raised by an arm of `exec` whose command has no meaning yet. No arm of this model is refused. Safe. -/
  | notModelled (mnemonic : String)
  deriving DecidableEq, Repr

/-- The error codes of spec/60_exceptions.md R200. Codes 5 to 15 are never produced, so they have no constructor. -/
inductive ErrorCode where
  | none | illegalOp | badLcount | badKsel | evenModulus
  deriving DecidableEq, Repr

/-- One limb of a bank: the value stored, and whether the limb has been written since reset (R33).
The stored value of an unwritten limb is never read: the read operation answers the free value of R33. -/
structure Limb where
  value : Word
  written : Bool
  deriving DecidableEq, Repr

/-- An operand bank: 16 limbs (R30). -/
abbrev Bank := Vector Limb 16

/-- How wide a host access is (spec/20_memory.md R61). -/
inductive AccessSize where
  /-- A single access of `n` bytes. -/
  | bytes (n : Nat)
  /-- A burst of `beats` beats. -/
  | burst (beats : Nat)
  deriving DecidableEq, Repr

/-- A host write that the platform's fabric holds: issued, and not yet in effect (spec/70_reset_and_hazards.md R246). -/
structure PostedWrite where
  off : Nat
  size : AccessSize
  data : Word
  deriving DecidableEq, Repr

/-- One point of the total order of spec/20_memory.md R70. -/
inductive Event where
  /-- A host read at a bus address (R60). -/
  | read (addr : Nat) (size : AccessSize)
  /-- A host write at a bus address (R60). -/
  | write (addr : Nat) (size : AccessSize) (data : Word)
  /-- The reset input is asserted (spec/70_reset_and_hazards.md R230). -/
  | reset
  /-- The engine takes its step, if it has one (R241). -/
  | engine
  /-- The host issues a write that the platform's fabric holds (R72, R246). It has no effect on the block yet. -/
  | issue (addr : Nat) (size : AccessSize) (data : Word)
  /-- The write at `index` of the fabric, 0 the oldest, reaches the block and takes effect (R72, R246). -/
  | land (index : Nat)
  deriving DecidableEq, Repr

/-- What the bus answers to a host access. -/
inductive Response where
  /-- A read completed with data. -/
  | readData (v : Word)
  /-- A write completed without an error response. -/
  | writeDone
  /-- A read got an error response: the data is a free value (spec/60_exceptions.md R205). -/
  | readError (v : Word)
  /-- A write got an error response and had no effect (R205). -/
  | writeError
  deriving DecidableEq, Repr

/-- Everything the spec gives the machine (R20), and below it the model's own fields. -/
structure State where
  /-- STATUS.DONE (R24). -/
  done : Bool
  /-- STATUS.BUSYERR (R24). -/
  busyErr : Bool
  /-- STATUS.ERRCODE (R24, R200). -/
  errCode : ErrorCode
  /-- CFG.LCOUNT (R25). -/
  lcount : BitVec 5
  /-- CFG.KSEL (R25). -/
  ksel : BitVec 4
  /-- CFG.IRQEN (R25). -/
  irqEn : Bool
  /-- N0 (R26). -/
  n0 : Word
  /-- EXPBITS, bits 10:0 (R27). -/
  expBits : BitVec 11
  /-- WINK, bits 2:0 (R28). -/
  winK : BitVec 3
  /-- OPCOUNT.SQR, bits 31:0 (R29). -/
  sqr : BitVec 32
  /-- OPCOUNT.MUL, bits 63:32 (R29). -/
  mul : BitVec 32
  /-- Bank N: the modulus (R30). -/
  bankN : Bank
  /-- Bank RR: R² mod n (R30). -/
  bankRR : Bank
  /-- Bank A: the operand a, or the base (R30). -/
  bankA : Bank
  /-- Bank B: the operand b, or the exponent (R30). -/
  bankB : Bank
  /-- Bank RES: the result (R30). -/
  bankRes : Bank
  /-- ENG.phase, and with it STATUS.BUSY (R24, R41). -/
  phase : Phase
  /-- The engine's internal state (R41 to R46). -/
  internals : Internals
  /-- The model's own: the events still to come in the total order of R70, next first. Log entry 4. -/
  schedule : List Event
  /-- The model's own: the answer to the latest host access. Log entry 5. -/
  response : Option Response
  /-- The model's own: the model fault UnwrittenOperand has been recorded (R33, R212). Log entry 6. -/
  unwrittenOperand : Bool
  /-- The model's own: the model fault BusErrorRead has been recorded (R212). Log entry 6. -/
  busErrorRead : Bool
  /-- The model's own: the number of the next free value (R10). Log entry 7. -/
  draws : Nat
  /-- The model's own: how many times the reset input was asserted. Log entry 2. -/
  epoch : Nat
  /-- The model's own: the host writes in flight in the platform's fabric, oldest first (R246). Log entry 11. -/
  fabric : List PostedWrite
  /-- The model's own: the running command was accepted with an operand write in flight (R246). Log entry 11. -/
  inFlight : Bool
  deriving DecidableEq, Repr

/-- A bank after reset: every limb unwritten (R230). The stored zero is never read. Log entry 1. -/
def Bank.reset : Bank := Vector.replicate 16 { value := 0, written := false }

/-- The internal fields in the state the model starts from: the spec gives none, and the model names
these. Nothing reads them before a command is accepted. Log entry 3. -/
def Internals.reset : Internals where
  op := .illegal
  lcount := 0
  ksel := 0
  limbCount := 0
  width := 0
  acc := Vector.replicate 18 0
  carry := 0
  m := 0
  row := 0
  col := 0
  ge := false
  tbl := Vector.replicate 16 (Vector.replicate 16 0)
  li := 0
  bi := 0
  x := Vector.replicate 16 0
  isId := false
  w := 0
  nSq := 0
  baseMont := Vector.replicate 16 0
  g2 := Vector.replicate 16 0
  expLen := 0

/-- The machine right after reset (R21, R230, R231). -/
def State.reset : State where
  done := false
  busyErr := false
  errCode := .none
  lcount := 0
  ksel := 0
  irqEn := false
  n0 := 0
  expBits := 0
  winK := 0
  sqr := 0
  mul := 0
  bankN := Bank.reset
  bankRR := Bank.reset
  bankA := Bank.reset
  bankB := Bank.reset
  bankRes := Bank.reset
  phase := .idle
  internals := Internals.reset
  schedule := []
  response := none
  unwrittenOperand := false
  busErrorRead := false
  draws := 0
  epoch := 0
  fabric := []
  inFlight := false

end Sys2Proof.Machine
end

