-- ==== Sys2Proof/Machine/Flags.lean ====
section
/-! DEFINITION. The flags and the read views of STATUS, CFG, EXPBITS, WINK and OPCOUNT (spec/10_state.md R24 to R29, R46), and the interrupt output (spec/60_exceptions.md R210). -/

namespace Sys2Proof.Machine

/-- The 4-bit code of an error (spec/60_exceptions.md R200). -/
def ErrorCode.toBits : ErrorCode → BitVec 4
  | .none => 0
  | .illegalOp => 1
  | .badLcount => 2
  | .badKsel => 3
  | .evenModulus => 4

/-- STATUS.BUSY, which equals ENG.phase = BUSY at every step (R24, R41). -/
def State.busy (s : State) : Bool := s.phase == .busy

/-- The interrupt output `IRQ = STATUS.DONE ∧ CFG.IRQEN` (R210). -/
def State.irq (s : State) : Bool := s.done && s.irqEn

/-- STATUS as a read returns it: BUSY 0, DONE 1, BUSYERR 2, ERRCODE 7:4, the rest 0 (R24). -/
def State.statusWord (s : State) : Word :=
  (0 : BitVec 56) ++ s.errCode.toBits ++ (0 : BitVec 1) ++ BitVec.ofBool s.busyErr ++ BitVec.ofBool s.done
    ++ BitVec.ofBool s.busy

/-- CFG as a read returns it: LCOUNT 4:0, KSEL 11:8, IRQEN 16, the rest 0 (R25). -/
def State.cfgWord (s : State) : Word :=
  (0 : BitVec 47) ++ BitVec.ofBool s.irqEn ++ (0 : BitVec 4) ++ s.ksel ++ (0 : BitVec 3) ++ s.lcount

/-- EXPBITS as a read returns it: bits 63:11 are 0 (R27). -/
def State.expBitsWord (s : State) : Word := s.expBits.setWidth 64

/-- WINK as a read returns it: bits 63:3 are 0 (R28). -/
def State.winKWord (s : State) : Word := s.winK.setWidth 64

/-- OPCOUNT as a read returns it: MUL in bits 63:32, SQR in bits 31:0 (R29). -/
def State.opCountWord (s : State) : Word := s.mul ++ s.sqr

/-- What a write to STATUS does: DONE and BUSYERR are cleared by writing 1; the other bits are unaffected
(R24). Writing 1 to DONE is the host's acknowledgement (spec/60_exceptions.md R211). -/
def State.clearStatus (v : Word) (s : State) : State :=
  { s with done := s.done && !v.getLsbD 1, busyErr := s.busyErr && !v.getLsbD 2 }

/-- What a write to CFG does: the three fields are stored, the reserved bits are ignored (R25, R34). -/
def State.writeCfg (v : Word) (s : State) : State :=
  { s with lcount := v.extractLsb' 0 5, ksel := v.extractLsb' 8 4, irqEn := v.getLsbD 16 }

end Sys2Proof.Machine
end

