-- ==== Sys2Proof/Machine/Operands.lean ====
section
/-! DEFINITION. The operand decoders: the bit-length scanner, the window policy, the effective limb count and the effective window width (spec/41_bitlen_window.md R140 to R143; spec/30_encoding.md R85, R86). -/

namespace Sys2Proof.Machine

/-- Limb `i` of a limb vector; limbs past the end do not exist and read as 0. -/
def limbAt (e : Limbs) (i : Nat) : Word := e.getD i 0

/-- `BitLen(e, L)` (R140): scan from limb L-1 down; the 1-based position of the highest set bit, or 0. -/
def bitLen (e : Limbs) : (l : Nat) → Nat
  | 0 => 0
  | li + 1 => if limbAt e li ≠ 0 then 64 * li + Nat.log2 (limbAt e li).toNat + 1 else bitLen e li

/-- Bit `p` of the value of a limb vector (spec/42_modexp.md, opening). -/
def bitAt (e : Limbs) (p : Nat) : Bool := (limbAt e (p / 64)).getLsbD (p % 64)

/-- The window-width policy, with the source's thresholds 18, 48 and 144 (R142). -/
def selectK (expLen : Nat) : Nat :=
  if expLen < 18 then 1 else if expLen < 48 then 3 else if expLen < 144 then 4 else 5

/-- `effL` (R85): the effective limb count, `none` where it fails with BAD_LCOUNT. -/
def effL (clamp : Bool) (f : BitVec 5) : Option Nat :=
  if f.toNat = 0 then none
  else if f.toNat ≤ 16 then some f.toNat
  else if clamp then some 16
  else none

/-- The window selectors a command accepts: 0, 1, 3, 4 and 5 (R86, spec/60_exceptions.md R202). -/
def kselLegal (s : BitVec 4) : Bool :=
  s == 0 || s == 1 || s == 3 || s == 4 || s == 5

/-- `effK` (R86): the effective window width, `none` where it fails with BAD_KSEL. -/
def effK (s : BitVec 4) (expLen : Nat) : Option Nat :=
  if s = 0 then some (selectK expLen)
  else if kselLegal s then some s.toNat
  else none

/-- The width L at which a decoded command runs (R81, R85), where it has one. -/
def limbCountOf (clamp : Bool) (d : Decoded) (f : BitVec 5) : Option Nat :=
  match d with
  | .instr .montmul => effL clamp f
  | .instr .bitlen => effL clamp f
  | .instr .modexp4 => some 4
  | .instr .modexpg => effL clamp f
  | .illegal => none

/-- The window width k at which a decoded command runs (R81, R86, spec/41_bitlen_window.md R143), where it has one. -/
def widthOf (d : Decoded) (s : BitVec 4) (expLen : Nat) : Option Nat :=
  match d with
  | .instr .montmul => none
  | .instr .bitlen => effK s expLen
  | .instr .modexp4 => effK s expLen
  | .instr .modexpg => some 1
  | .illegal => none

/-- The width k that acceptance latches into ENG.k (spec/10_state.md R41), `none` where the command has none. `l` is the
limb count at which the command runs, and `expLen` the exponent's bit length at a limb count.
DESIGN CHOICE (log entry 3): a BITLEN whose LCOUNT `effL` rejects has no L, so it has no E and no k. MODEXPG has its
fixed k = 1 (R86) whatever LCOUNT is. -/
def latchedWidth (d : Decoded) (s : BitVec 4) (l : Option Nat) (expLen : Nat → Nat) : Option Nat :=
  match l with
  | some l => widthOf d s (expLen l)
  | none => if d = .instr .modexpg then some 1 else none

end Sys2Proof.Machine
end

