-- ==== Sys2Proof/Machine/RegisterMap.lean ====
section
/-! DEFINITION. The register map of the window and its bus errors (spec/10_state.md R21, R30; spec/20_memory.md R61, R62; spec/60_exceptions.md R205), and which writes are operand writes (spec/70_reset_and_hazards.md R246). -/

namespace Sys2Proof.Machine

/-- What stands at an aligned offset of the window (R21). -/
inductive Target where
  | id | cmd | status | cfg | n0 | expBits | winK | opCount
  | limb (bk : BankId) (i : Fin 16)
  | reserved
  deriving DecidableEq, Repr

/-- The eight registers at 0x000 to 0x038, by offset/8 (R21). -/
def registerAt (index : Nat) : Target :=
  match index with
  | 0 => .id
  | 1 => .cmd
  | 2 => .status
  | 3 => .cfg
  | 4 => .n0
  | 5 => .expBits
  | 6 => .winK
  | 7 => .opCount
  | _ => .reserved

/-- The five banks, each 0x80 bytes, from 0x100 up (R21, R30). -/
def bankAt (index : Nat) : Option BankId :=
  match index with
  | 0 => some .n
  | 1 => some .rr
  | 2 => some .a
  | 3 => some .b
  | 4 => some .res
  | _ => none

/-- The register map of R21, on aligned offsets of the window: registers, then banks; 0x040 to 0x0F8 and 0x380 to
0xFF8 are reserved. -/
def targetAt (off : Nat) : Target :=
  if off < 0x040 then registerAt (off / 8)
  else if off < 0x100 then .reserved
  else
    match bankAt ((off - 0x100) / 0x80) with
    | some bk => .limb bk (Fin.ofNat 16 (off / 8))
    | none => .reserved

/-- The base offset of a bank (R30). -/
def BankId.base : BankId → Nat
  | .n => 0x100
  | .rr => 0x180
  | .a => 0x200
  | .b => 0x280
  | .res => 0x300

/-- The offset of a target (R21, R30, R87); the reserved target stands for many offsets and has none. -/
def Target.offset : Target → Option Nat
  | .id => some 0x000
  | .cmd => some 0x008
  | .status => some 0x010
  | .cfg => some 0x018
  | .n0 => some 0x020
  | .expBits => some 0x028
  | .winK => some 0x030
  | .opCount => some 0x038
  | .limb bk i => some (bk.base + 8 * i.val)
  | .reserved => none

/-- Only single 8-byte accesses are supported (spec/20_memory.md R61). -/
def AccessSize.supported : AccessSize → Bool
  | .bytes n => n == 8
  | .burst _ => false

/-- The three causes of a bus error (spec/60_exceptions.md R205). -/
def busError (off : Nat) (size : AccessSize) : Bool :=
  !size.supported || off % 8 != 0 || targetAt off == .reserved

/-- The targets that hold a command's operands: the input banks, N0 and CFG (spec/70_reset_and_hazards.md R246). -/
def Target.isOperand : Target → Bool
  | .id => false
  | .cmd => false
  | .status => false
  | .cfg => true
  | .n0 => true
  | .expBits => false
  | .winK => false
  | .opCount => false
  | .limb bk _ => bk != .res
  | .reserved => false

/-- A write in flight that will write an operand when it lands on an idle engine (R246). -/
def PostedWrite.isOperand (w : PostedWrite) : Bool := !busError w.off w.size && (targetAt w.off).isOperand

end Sys2Proof.Machine
end

