-- ==== Sys2Proof/Machine/Ops.lean ====
section
/-! DEFINITION. The named operations over banks and registers: reading and writing limbs, accepting a command, completing it with or without an error, and the reset input (spec/10_state.md R30 to R33; spec/70_reset_and_hazards.md R230, R240, R241). -/

namespace Sys2Proof.Machine

/-! ### Banks -/

/-- A bank by its name (R30). -/
def State.bank (s : State) : BankId → Bank
  | .n => s.bankN
  | .rr => s.bankRR
  | .a => s.bankA
  | .b => s.bankB
  | .res => s.bankRes

/-- Replace a bank by its name. -/
def State.setBank (s : State) : BankId → Bank → State
  | .n, v => { s with bankN := v }
  | .rr, v => { s with bankRR := v }
  | .a, v => { s with bankA := v }
  | .b, v => { s with bankB := v }
  | .res, v => { s with bankRes := v }

/-- The value of limb `i` of a bank: what was written, or the free value of R33 where nothing was. -/
def State.limb (s : State) (bk : BankId) (i : Nat) : Word :=
  match (s.bank bk)[i]? with
  | some l => if l.written then l.value else Config.unwrittenLimb s.epoch bk i
  | none => 0

/-- Limb `i` of a bank has been written since reset (R33). -/
def State.isWritten (s : State) (bk : BankId) (i : Nat) : Bool :=
  match (s.bank bk)[i]? with
  | some l => l.written
  | none => false

/-- Limbs 0 to l-1 of a bank (R31). -/
def State.limbs (s : State) (bk : BankId) (l : Nat) : Limbs := (List.range l).map (s.limb bk)

/-- A host write of one limb, which marks it written (R33). -/
def State.setLimb (bk : BankId) (i : Nat) (v : Word) (s : State) : State :=
  s.setBank bk ((s.bank bk).setIfInBounds i { value := v, written := true })

/-- The bank whose limbs 0 to l-1 are `r` and whose other limbs are 0, all written. -/
def Bank.ofResult (r : Limbs) : Bank := Vector.ofFn fun i => { value := limbAt r i.val, written := true }

/-- Write a result: limbs 0 to L-1 of RES take it, limbs L to 15 take 0, all become written (R31, R33). -/
def State.writeRes (r : Limbs) (s : State) : State := { s with bankRes := Bank.ofResult r }

/-- A command reads limbs 0 to l-1 of a bank: an unwritten one among them records UnwrittenOperand (R33). -/
def State.noteReads (bk : BankId) (l : Nat) (s : State) : State :=
  { s with unwrittenOperand := s.unwrittenOperand || !(List.range l).all (s.isWritten bk) }

/-- Bit 0 of N[0] is 0, the EVEN_MODULUS condition (spec/60_exceptions.md R203). -/
def State.modulusEven (s : State) : Bool := !(s.limb .n 0).getLsbD 0

/-! ### Single fields -/

/-- Replace the schedule, the events still to come. -/
def State.withSchedule (events : List Event) (s : State) : State := { s with schedule := events }

/-- Replace the writes in flight in the platform's fabric. -/
def State.withFabric (writes : List PostedWrite) (s : State) : State := { s with fabric := writes }

/-- Answer a host access. -/
def State.respond (r : Response) (s : State) : State := { s with response := some r }

/-- Answer a read that got a bus error: a free value, and the model fault BusErrorRead is recorded
(spec/60_exceptions.md R205, R212). -/
def State.respondReadError (s : State) : State :=
  { s with response := some (.readError (Config.busErrorData s.draws)), busErrorRead := true, draws := s.draws + 1 }

/-- Write N0 (R26). -/
def State.writeN0 (v : Word) (s : State) : State := { s with n0 := v }

/-! ### Observation registers -/

/-- Write EXPBITS and WINK (R27, R28). -/
def State.writeScan (expLen k : Nat) (s : State) : State :=
  { s with expBits := BitVec.ofNat 11 expLen, winK := BitVec.ofNat 3 k }

/-- Write OPCOUNT (R29). -/
def State.writeOpCount (sq mu : Nat) (s : State) : State :=
  { s with sqr := BitVec.ofNat 32 sq, mul := BitVec.ofNat 32 mu }

/-! ### The command lifecycle -/

/-- Acceptance of a command (spec/70_reset_and_hazards.md R240, spec/10_state.md R41): BUSY rises, DONE and ERRCODE
clear, the opcode, LCOUNT and KSEL are latched, and with them the effective limb count and window width
where the command has them. BUSYERR is unchanged.
DESIGN CHOICE (log entry 3): where the command has no effective limb count (`limbCountOf`) or no window width
(`latchedWidth`), as when BITLEN's LCOUNT is rejected, ENG.L or ENG.k keeps the unspecified value it had.
An operand write in flight at this point is marked for the completion (R246, log entry 11). -/
def State.accept (d : Decoded) (s : State) : State :=
  let l := limbCountOf Config.clampLcount d s.lcount
  let k := latchedWidth d s.ksel l fun l => bitLen (s.limbs .b l) l
  { s with
    phase := .busy
    done := false
    errCode := .none
    inFlight := s.fabric.any PostedWrite.isOperand
    internals := { s.internals with
      op := d
      lcount := s.lcount
      ksel := s.ksel
      limbCount := l.getD s.internals.limbCount
      width := k.getD s.internals.width } }

/-- Completion of a command with a code (R241): ERRCODE takes the code, DONE rises, the engine returns to IDLE,
and the internal fields become unspecified (spec/10_state.md R41 to R44). -/
def State.finish (code : ErrorCode) (s : State) : State :=
  { s with
    phase := .idle
    done := true
    errCode := code
    inFlight := false
    internals := Config.anyInternals s.draws
    draws := s.draws + 1 }

/-- Error completion, the block's trap entry (spec/60_exceptions.md R209): nothing but STATUS changes, so RES,
EXPBITS, WINK and OPCOUNT keep their values. The return from it is `State.clearStatus`. -/
def State.failWith (code : ErrorCode) (s : State) : State := s.finish code

/-- Completion without an error (R241). -/
def State.succeed (s : State) : State := s.finish .none

/-- A write that lands while BUSY on CMD, CFG, N0 or an input bank: dropped, and BUSYERR is set
(spec/70_reset_and_hazards.md R245). -/
def State.dropWrite (s : State) : State := { s with busyErr := true }

/-- The reset input (spec/70_reset_and_hazards.md R230, R231): every register takes its reset value, every limb becomes
unwritten and unspecified, every internal field becomes unspecified, and a running command is abandoned.
The model's own schedule, records and counters are kept, and so is the
platform's fabric. -/
def State.resetInput (s : State) : State :=
  { State.reset with
    internals := Config.anyInternals s.draws
    schedule := s.schedule
    unwrittenOperand := s.unwrittenOperand
    busErrorRead := s.busErrorRead
    draws := s.draws + 1
    epoch := s.epoch + 1
    fabric := s.fabric }

end Sys2Proof.Machine
end

