-- ==== Sys2Proof/Machine/Bus.lean ====
section
/-! DEFINITION. The host's bus accesses: reads, writes, and writes that the platform's fabric holds (spec/10_state.md R21 to R34; spec/20_memory.md R60 to R68; spec/60_exceptions.md R205; spec/70_reset_and_hazards.md R246). -/

namespace Sys2Proof.Machine

/-- The constant of the ID register, the ASCII bytes "MONTCIOS" (R22). -/
def idValue : Word := 0x4D4F4E5443494F53

/-- The current value of a target (R22 to R30, R67). No host access at a reserved offset gets
here: it is a bus error (R205). That the reserved target counts as 0 is a DESIGN CHOICE that only the byte view below
uses (log entry 9). -/
def State.readTarget (s : State) : Target → Word
  | .id => idValue
  | .cmd => 0
  | .status => s.statusWord
  | .cfg => s.cfgWord
  | .n0 => s.n0
  | .expBits => s.expBitsWord
  | .winK => s.winKWord
  | .opCount => s.opCountWord
  | .limb bk i => s.limb bk i.val
  | .reserved => 0

/-- The byte at byte offset `a` of the window, by the little-endian lanes of R64. It is how statements speak of bytes; no
operation of the machine uses it.
DESIGN CHOICE (log entry 9): the spec gives a reserved offset, or one past the window, no byte; the view is 0 there. -/
def State.windowByte (s : State) (a : Nat) : Byte := byteLane (s.readTarget (targetAt (a / 8 * 8))) (a % 8)

/-- A host write of CMD: accepted when the engine is idle (spec/70_reset_and_hazards.md R240), dropped while it is busy
(R245). -/
def State.writeCmd (v : Word) (s : State) : State := if s.busy then s.dropWrite else s.accept (decode v)

/-- A host write that only an idle engine lets through (R245). -/
def State.whenIdle (s : State) (written : State) : State := if s.busy then s.dropWrite else written

/-- What a write of a target does: the RW targets and CMD as R245 says, STATUS at any time (R24), and nothing on a
read-only target (R21). A reserved offset never gets here. -/
def State.writeTarget (t : Target) (v : Word) (s : State) : State :=
  match t with
  | .id => s
  | .cmd => s.writeCmd v
  | .status => s.clearStatus v
  | .cfg => s.whenIdle (s.writeCfg v)
  | .n0 => s.whenIdle (s.writeN0 v)
  | .expBits => s
  | .winK => s
  | .opCount => s
  | .limb .res _ => s
  | .limb bk i => s.whenIdle (s.setLimb bk i.val v)
  | .reserved => s

/-- A host read at an offset of the window. A bus error answers a free value and records BusErrorRead (R205, R212). -/
def State.readAt (off : Nat) (size : AccessSize) (s : State) : State :=
  if busError off size then s.respondReadError else s.respond (.readData (s.readTarget (targetAt off)))

/-- A host write at an offset of the window. A bus error has no effect on the machine (R205). -/
def State.writeAt (off : Nat) (size : AccessSize) (v : Word) (s : State) : State :=
  if busError off size then s.respond .writeError else (s.writeTarget (targetAt off) v).respond .writeDone

/-- The host issues a write that the fabric holds: the youngest in flight (spec/70_reset_and_hazards.md R246). -/
def State.issue (off : Nat) (size : AccessSize) (v : Word) (s : State) : State :=
  s.withFabric (s.fabric ++ [{ off := off, size := size, data := v }])

/-- The write at `index` of the fabric takes effect, as any host write does at that point (R70). An acceptance among
them looks at the writes issued before it, those that the duty of R72 is about. -/
def State.land (index : Nat) (s : State) : State :=
  match s.fabric[index]? with
  | none => s
  | some w =>
    ((s.withFabric (s.fabric.take index)).writeAt w.off w.size w.data).withFabric (s.fabric.eraseIdx index)

/-- The window offset of a bus address (R60), `none` outside the 4 KiB window. -/
def windowOffset (addr : Nat) : Option Nat :=
  if Config.baseAddr ≤ addr ∧ addr < Config.baseAddr + 4096 then some (addr - Config.baseAddr) else none

/-- A host access at a bus address: `act` at its window offset, or the fault outside the window. -/
def hostAccess (addr : Nat) (act : Nat → State) : Host.Outcome State Fault Refusal :=
  match windowOffset addr with
  | some off => .next (act off)
  | none => .fault .outsideWindow

end Sys2Proof.Machine
end

