-- ==== Sys2Proof/Machine/Bitlen.lean ====
section
/-! DEFINITION. The BITLEN command (spec/41_bitlen_window.md R145). -/

namespace Sys2Proof.Machine

/-- The completion step of BITLEN (R145): BAD_LCOUNT, then BAD_KSEL, then EXPBITS, WINK and OPCOUNT. The scan of B
comes before the KSEL check in the rule's order, so B is read on that path too. -/
def bitlenStep (s : State) : State :=
  match effL Config.clampLcount s.internals.lcount with
  | none => s.failWith .badLcount
  | some l =>
    let expLen := bitLen (s.limbs .b l) l
    match effK s.internals.ksel expLen with
    | none => (s.noteReads .b l).failWith .badKsel
    | some k => ((s.noteReads .b l).writeScan expLen k |>.writeOpCount 0 0).succeed

/-- BITLEN always completes in one step. -/
def execBitlen (s : State) : Host.Outcome State Fault Refusal := .next (bitlenStep s)

end Sys2Proof.Machine
end

