-- ==== Sys2Proof/Machine/Cios.lean ====
section
/-! DEFINITION. The Montgomery multiplication core: the wide accumulator, one row of CIOS, the conditional subtraction, the function MM and its contract (spec/40_montmul.md R100 to R113). -/

namespace Sys2Proof.Machine

/-- The wide accumulator of R100 for a product of width L: `limbs` is ACC[0..L-1], `top` is ACC[L] and `overflow`
is ACC[L+1]. -/
structure Acc where
  limbs : Limbs
  top : Word
  overflow : Word
  deriving DecidableEq, Repr

/-- The value of the accumulator, ACC[L] and ACC[L+1] included (R100, R111). -/
def Acc.value (acc : Acc) : Nat :=
  val acc.limbs + radix acc.limbs.length * acc.top.toNat + radix (acc.limbs.length + 1) * acc.overflow.toNat

/-- The accumulator at the start of a product (R101). -/
def Acc.zero (l : Nat) : Acc := { limbs := List.replicate l 0, top := 0, overflow := 0 }

/-- The column loop of R102 and R104: add `x·y[j]` and the carry into accumulator limb j, for j from 0 up (R107). -/
def macRow : (ts : Limbs) → (x : Word) → (ys : Limbs) → (c : Word) → Limbs × Word
  | t :: ts, x, y :: ys, c =>
    (lo64 (mac t x y c) :: (macRow ts x ys (hi64 (mac t x y c))).1, (macRow ts x ys (hi64 (mac t x y c))).2)
  | _, _, _, c => ([], c)

/-- Steps 1 and 3 of a row (R102, R104): multiply-accumulate, then extend the carry into ACC[L] and ACC[L+1]. -/
def Acc.addMul (x : Word) (ys : Limbs) (acc : Acc) : Acc :=
  let row := macRow acc.limbs x ys 0
  let s := acc.top.toNat + row.2.toNat
  { limbs := row.1, top := lo64 s, overflow := acc.overflow + hi64 s }

/-- Step 2 of a row (R103): the reduction multiplier, a truncating product. -/
def reductionMultiplier (n0 : Word) (acc : Acc) : Word := acc.limbs.headD 0 * n0

/-- Step 4 of a row (R105): shift right by one limb; ACC[0] is discarded unchecked and ACC[L+1] becomes 0. -/
def Acc.shift (acc : Acc) : Acc := { limbs := acc.limbs.tail ++ [acc.top], top := acc.overflow, overflow := 0 }

/-- One row of CIOS: steps 1 to 4 (R102 to R105). -/
def ciosRow (n0 : Word) (n b : Limbs) (acc : Acc) (ai : Word) : Acc :=
  let added := acc.addMul ai b
  (added.addMul (reductionMultiplier n0 added) n).shift

/-- The comparison of R108, on limbs listed most significant first: the first differing limb decides, and equality
counts as greater or equal. -/
def geMsf : Limbs → Limbs → Bool
  | x :: xs, y :: ys => if y.toNat < x.toNat then true else if x.toNat < y.toNat then false else geMsf xs ys
  | _, _ => true

/-- The comparison result `ge` (R108): a nonzero ACC[L] forces the subtraction. -/
def accGe (acc : Acc) (n : Limbs) : Bool := if acc.top ≠ 0 then true else geMsf acc.limbs.reverse n.reverse

/-- Subtraction with borrow (R109). The final borrow is not stored. -/
def subBorrow : (xs ys : Limbs) → (borrow : Bool) → Limbs
  | x :: xs, y :: ys, borrow =>
    let d : Int := (x.toNat : Int) - y.toNat - borrow.toNat
    BitVec.ofInt 64 d :: subBorrow xs ys (decide (d < 0))
  | _, _, _ => []

/-- The conditional subtraction (R108, R109). -/
def condSub (acc : Acc) (n : Limbs) : Limbs := if accGe acc n then subBorrow acc.limbs n false else acc.limbs

/-- The function `MM(a, b)` of R110 at width L = n.length. -/
def mm (n0 : Word) (n a b : Limbs) : Limbs := condSub (a.foldl (ciosRow n0 n b) (Acc.zero n.length)) n

/-- Condition (ii) of the contract of R113: `(n0 · n[0]) mod 2^64 = 2^64 - 1`. -/
def n0Correct (n0 : Word) (n : Limbs) : Bool := n0 * n.headD 0 == BitVec.allOnes 64

/-- Condition (i) of the contract of R113: n[0] is odd. -/
def modulusOdd (n : Limbs) : Bool := (n.headD 0).getLsbD 0

/-- The contract of MM (R113). -/
def mmInContract (n0 : Word) (n a b : Limbs) : Bool :=
  modulusOdd n && n0Correct n0 n && decide (val a < val n) && decide (val b < val n)

end Sys2Proof.Machine
end

