-- ==== Sys2Proof/Machine/Driver.lean ====
section
/-! DEFINITION. The odd-power table and the sliding-window exponentiation driver (spec/42_modexp.md R160 to R175). -/

namespace Sys2Proof.Machine

/-! ### The window at a cursor -/

/-- Extract window (R165): `len` bits of the exponent from bit `pos` downward, combined from two limbs where the
window straddles a limb boundary. -/
def extractWindow (e : Limbs) (pos len : Nat) : Nat :=
  let li := pos / 64
  let bi := pos % 64
  if len ≤ bi + 1 then ((limbAt e li).toNat >>> (bi + 1 - len)) % 2 ^ len
  else
    let h := bi + 1
    ((limbAt e li).toNat % 2 ^ h) * 2 ^ (len - h) + (limbAt e (li - 1)).toNat >>> (64 - (len - h))

/-- Normalize window (R166): strip the trailing zero bits of a window value of `len` bits. The answer is the odd
value and `nSq`, which is `len` less the bits stripped. -/
def normalizeWindow : (len : Nat) → (w : Nat) → Nat × Nat
  | 0, w => (w, 0)
  | len + 1, w => if w % 2 = 0 then normalizeWindow len (w / 2) else (w, len + 1)

/-- A window `(pos, len, w, nSq)`: the position of its top bit, its length, its value after stripping and its
squarings owed (spec/95_test_vectors.md, conventions; R165, R166). -/
structure Window where
  pos : Nat
  len : Nat
  w : Nat
  nSq : Nat
  deriving DecidableEq, Repr

/-- The window that starts at bit `pos`, for window width `k` (R165, R166). -/
def windowAt (e : Limbs) (k pos : Nat) : Window :=
  let len := min k (pos + 1)
  let norm := normalizeWindow len (extractWindow e pos len)
  { pos := pos, len := len, w := norm.1, nSq := norm.2 }

/-! ### The odd-power table -/

/-- The entries after `first`, each the Montgomery product of the one before it with g2, `count` in all (R162). -/
def oddPowers (mulG2 : Limbs → Limbs) (first : Limbs) : (count : Nat) → List Limbs
  | 0 => []
  | count + 1 => first :: oddPowers mulG2 (mulG2 first) count

/-- The table of `2^(k-1)` entries and the number of squarings and multiplications it took (R160, R162). For k = 1 it
is the single entry baseMont and no g2 is computed. -/
def buildTable (mul : Limbs → Limbs → Limbs) (baseMont : Limbs) (k : Nat) : List Limbs × Nat × Nat :=
  if k ≤ 1 then ([baseMont], 0, 0)
  else (oddPowers (fun t => mul t (mul baseMont baseMont)) baseMont (2 ^ (k - 1)), 1, 2 ^ (k - 1) - 1)

/-! ### The scan -/

/-- The driver state of spec/10_state.md R44 during the scan, with the two counters of spec/40_montmul.md R120. `left` is
`pos + 1`, the number of exponent bits not yet consumed: the cursor is terminal when it is 0 (R170). -/
structure Scan where
  x : Limbs
  isId : Bool
  left : Nat
  sqr : Nat
  mul : Nat
  deriving DecidableEq, Repr

/-- Square `count` times (R167). -/
def squareTimes (mul : Limbs → Limbs → Limbs) : (count : Nat) → Limbs → Limbs
  | 0, x => x
  | count + 1, x => squareTimes mul count (mul x x)

/-- Apply a window and advance past it (R167, R168). -/
def applyWindow (mul : Limbs → Limbs → Limbs) (tbl : List Limbs) (win : Window) (d : Scan) : Scan :=
  let entry := tbl.getD ((win.w - 1) / 2) []
  if d.isId then { d with x := entry, isId := false, left := d.left - win.nSq }
  else
    { d with
      x := mul (squareTimes mul win.nSq d.x) entry
      left := d.left - win.nSq
      sqr := d.sqr + win.nSq
      mul := d.mul + 1 }

/-- Coast over zero bits (R169): one squaring for each, down to the next 1 bit or past bit 0. The second argument
is the number of bits not yet consumed. -/
def coast (mul : Limbs → Limbs → Limbs) (e : Limbs) : (left : Nat) → Scan → Scan
  | 0, d => { d with left := 0 }
  | pos + 1, d =>
    if bitAt e pos then { d with left := pos + 1 }
    else coast mul e pos { d with x := mul d.x d.x, sqr := d.sqr + 1 }

/-- One round of the driver at a nonterminal cursor: window, apply, advance, coast (R165 to R169). -/
def scanRound (mul : Limbs → Limbs → Limbs) (tbl : List Limbs) (e : Limbs) (k : Nat) (d : Scan) : Scan :=
  let applied := applyWindow mul tbl (windowAt e k (d.left - 1)) d
  coast mul e applied.left applied

/-- The scan (R170, R173): rounds until the cursor is terminal. Every round consumes at least one bit, so as many
rounds as there are bits suffice. -/
def scanLoop (mul : Limbs → Limbs → Limbs) (tbl : List Limbs) (e : Limbs) (k : Nat) : (fuel : Nat) → Scan → Scan
  | 0, d => d
  | fuel + 1, d => if d.left = 0 then d else scanLoop mul tbl e k fuel (scanRound mul tbl e k d)

/-! ### The whole exponentiation -/

/-- What an exponentiation returns: the result vector and the two counters (R173). -/
structure ModExpResult where
  r : Limbs
  sqr : Nat
  mul : Nat
  deriving DecidableEq, Repr

/-- `ModExp(base, e, rr, L, k)` with L = n.length (R173). -/
def modExp (n0 : Word) (n base e rr : Limbs) (k : Nat) : ModExpResult :=
  let expLen := bitLen e n.length
  if expLen = 0 then { r := oneL n.length, sqr := 0, mul := 0 }
  else
    let table := buildTable (mm n0 n) (mm n0 n base rr) k
    let scan := scanLoop (mm n0 n) table.1 e k expLen
      { x := [], isId := true, left := expLen, sqr := table.2.1, mul := 1 + table.2.2 }
    { r := mm n0 n scan.x (oneL n.length), sqr := scan.sqr, mul := scan.mul + 1 }

/-- The contract of ModExp (R175). -/
def modExpInContract (n0 : Word) (n base rr : Limbs) : Bool :=
  modulusOdd n && n0Correct n0 n && decide (val rr = 2 ^ (2 * 64 * n.length) % val n) && decide (val base < val n)

/-! ### The windows of an exponent -/

/-- The position of the highest 1 bit below bit `left`, plus 1, or 0 where there is none. -/
def nextOne (e : Limbs) : (left : Nat) → Nat
  | 0 => 0
  | pos + 1 => if bitAt e pos then pos + 1 else nextOne e pos

/-- The windows that the driver applies, in order, from a cursor with `left` bits unconsumed (R165 to R170). -/
def windowsFrom (e : Limbs) (k : Nat) : (fuel : Nat) → (left : Nat) → List Window
  | 0, _ => []
  | fuel + 1, left =>
    if left = 0 then []
    else
      let win := windowAt e k (left - 1)
      win :: windowsFrom e k fuel (nextOne e (left - win.nSq))

/-- The windows of an exponent of length L for window width `k`. -/
def windowsOf (e : Limbs) (l k : Nat) : List Window := windowsFrom e k (bitLen e l) (bitLen e l)

end Sys2Proof.Machine
end

