-- ==== Sys2Proof/Machine/Modexp.lean ====
section
/-! DEFINITION. The exponentiation commands MODEXP4 and MODEXPG (spec/42_modexp.md R163, R175 to R182; spec/70_reset_and_hazards.md R246). -/

namespace Sys2Proof.Machine

/-- The exponentiation of the current operands at width `l` with window width `k` (R173). -/
def modexpRun (l k : Nat) (s : State) : ModExpResult :=
  modExp s.n0 (s.limbs .n l) (s.limbs .a l) (s.limbs .b l) (s.limbs .rr l) k

/-- The result limbs 0 to L-1 of an exponentiation: the rule's value in contract (R176) and for E = 0 (R163), free
values otherwise (R177) and where an operand write was in flight at acceptance (spec/70_reset_and_hazards.md R246). -/
def modexpResult (site : Config.DrawSite) (l k : Nat) (s : State) : Limbs :=
  let n := s.limbs .n l
  let base := s.limbs .a l
  let e := s.limbs .b l
  let rr := s.limbs .rr l
  if s.inFlight = false ∧ (bitLen e l = 0 ∨ modExpInContract s.n0 n base rr) then (modexpRun l k s).r
  else (List.range l).map (Config.undefinedLimb site s.draws [[s.n0], n, base, e, rr])

/-- The outputs of an exponentiation that passed its checks (R180, R182): RES, EXPBITS, WINK and OPCOUNT. -/
def modexpFinish (site : Config.DrawSite) (l k : Nat) (s : State) : State :=
  ((((((s.noteReads .n l).noteReads .rr l).noteReads .a l).noteReads .b l).writeRes (modexpResult site l k s)
    |>.writeScan (bitLen (s.limbs .b l) l) k)
    |>.writeOpCount (modexpRun l k s).sqr (modexpRun l k s).mul).succeed

/-- The completion step of MODEXP4 (R180): BAD_KSEL, then EVEN_MODULUS, then the exponentiation at L = 4. -/
def modexp4Step (s : State) : State :=
  match effK s.internals.ksel (bitLen (s.limbs .b 4) 4) with
  | none => s.failWith .badKsel
  | some k =>
    if s.modulusEven then (s.noteReads .n 1).failWith .evenModulus
    else modexpFinish .modexp4 4 k s

/-- The completion step of MODEXPG (R182): BAD_LCOUNT, then EVEN_MODULUS, then the exponentiation with k = 1. -/
def modexpgStep (s : State) : State :=
  match effL Config.clampLcount s.internals.lcount with
  | none => s.failWith .badLcount
  | some l =>
    if s.modulusEven then (s.noteReads .n 1).failWith .evenModulus
    else modexpFinish .modexpg l 1 s

/-- MODEXP4 always completes in one step. -/
def execModexp4 (s : State) : Host.Outcome State Fault Refusal := .next (modexp4Step s)

/-- MODEXPG always completes in one step. -/
def execModexpg (s : State) : Host.Outcome State Fault Refusal := .next (modexpgStep s)

end Sys2Proof.Machine
end

