-- ==== Sys2Proof/Machine/Montmul.lean ====
section
/-! DEFINITION. The MONTMUL command (spec/40_montmul.md R113 to R115, R121; spec/70_reset_and_hazards.md R246). -/

namespace Sys2Proof.Machine

/-- The result limbs 0 to L-1 of MONTMUL: MM in contract (R110, R114), free values out of it (R115)
and where an operand write was in flight at acceptance (spec/70_reset_and_hazards.md R246). -/
def montmulResult (l : Nat) (s : State) : Limbs :=
  let n := s.limbs .n l
  let a := s.limbs .a l
  let b := s.limbs .b l
  if !s.inFlight && mmInContract s.n0 n a b then mm s.n0 n a b
  else (List.range l).map (Config.undefinedLimb .montmul s.draws [[s.n0], n, a, b])

/-- The completion step of MONTMUL (R121): BAD_LCOUNT, then EVEN_MODULUS, then the product. -/
def montmulStep (s : State) : State :=
  match effL Config.clampLcount s.internals.lcount with
  | none => s.failWith .badLcount
  | some l =>
    if s.modulusEven then (s.noteReads .n 1).failWith .evenModulus
    else
      ((((s.noteReads .n l).noteReads .a l).noteReads .b l).writeRes (montmulResult l s)
        |>.writeOpCount 0 1).succeed

/-- MONTMUL always completes in one step. -/
def execMontmul (s : State) : Host.Outcome State Fault Refusal := .next (montmulStep s)

end Sys2Proof.Machine
end

