-- ==== Sys2Proof/Machine/Dispatch.lean ====
section
/-! DEFINITION. The completion step of each command, one arm per constructor of Instr (spec/70_reset_and_hazards.md R241). -/

namespace Sys2Proof.Machine

def exec (i : Instr) (s : State) : Host.Outcome State Fault Refusal :=
  match i with
  | .montmul => Sys2Proof.Machine.execMontmul s
  | .bitlen => Sys2Proof.Machine.execBitlen s
  | .modexp4 => Sys2Proof.Machine.execModexp4 s
  | .modexpg => Sys2Proof.Machine.execModexpg s

end Sys2Proof.Machine
end

