-- ==== Sys2Proof/Machine/Events.lean ====
section
/-! DEFINITION. One point of the total order: a host access, a write issued into the fabric or landing from it, the reset input, or the engine's step (spec/20_memory.md R70; spec/70_reset_and_hazards.md R230, R241). -/

namespace Sys2Proof.Machine

/-- The completion of an ILLEGAL word (spec/60_exceptions.md R204): it reads no other state and applies no other check. -/
def illegalStep (s : State) : State := s.failWith .illegalOp

/-- The engine's step: while BUSY it completes the latched command (R241); while IDLE it performs no work
(spec/60_exceptions.md R219). -/
def engineTurn (s : State) : Host.Outcome State Fault Refusal :=
  match s.phase with
  | .idle => .next s
  | .busy =>
    match s.internals.op with
    | .instr i => exec i s
    | .illegal => .next (illegalStep s)

/-- The effect of one event. -/
def runEvent (e : Event) (s : State) : Host.Outcome State Fault Refusal :=
  match e with
  | .read addr size => hostAccess addr fun off => s.readAt off size
  | .write addr size v => hostAccess addr fun off => s.writeAt off size v
  | .reset => .next s.resetInput
  | .engine => engineTurn s
  | .issue addr size v => hostAccess addr fun off => s.issue off size v
  | .land index => .next (s.land index)

/-- The next point of the total order: the first scheduled event, or the engine's step when nothing is scheduled. -/
def nextPoint (s : State) : Host.Outcome State Fault Refusal :=
  match s.schedule with
  | [] => engineTurn s
  | e :: rest => runEvent e (s.withSchedule rest)

end Sys2Proof.Machine
end

