-- ==== Sys2Proof/Machine/Step.lean ====
section
/-! DEFINITION. The step: the next point of the total order of host accesses and engine steps (spec/20_memory.md R70). -/

namespace Sys2Proof.Machine

/-- One step of the machine. -/
def step (s : State) : Host.Outcome State Fault Refusal := nextPoint s

/-- The state in which the very next step runs the command word with bits `w`: the word has just been accepted
(spec/70_reset_and_hazards.md R240) and the engine's step comes next. Log entry 12. -/
def State.withFetchWord (s : State) (nbits w : Nat) : State :=
  (s.accept (decode (commandWord nbits w))).withSchedule (.engine :: s.schedule)

end Sys2Proof.Machine
end

