-- ==== Sys2Proof/Machine/HostAsm.lean ====
section
/-! DEFINITION. The host assembly notation and its pseudo-instructions, as lists of bus events (spec/30_encoding.md R87, R88). -/

namespace Sys2Proof.Machine

/-- `WR @off, v`: an 8-byte host write (R87). -/
def asmWriteAt (off : Nat) (v : Word) : Event := .write (Config.baseAddr + off) (.bytes 8) v

/-- `RD @off`: an 8-byte host read (R87). -/
def asmReadAt (off : Nat) : Event := .read (Config.baseAddr + off) (.bytes 8)

/-- `WR tgt, v` (R87). -/
def asmWrite (t : Target) (v : Word) : List Event := (t.offset.map fun off => asmWriteAt off v).toList

/-- `RD tgt` (R87). -/
def asmRead (t : Target) : List Event := (t.offset.map asmReadAt).toList

/-- `CMD mnemonic`: write the command word to CMD (R87). -/
def asmCmd (i : Instr) : List Event := asmWrite .cmd (encode i)

/-- `WAIT`: poll STATUS until BUSY reads 0 (R87). The number of polls before the engine's step is not fixed
(spec/70_reset_and_hazards.md R242): `polls` is any number of them, and the last read sees BUSY = 0. -/
def asmWait (polls : Nat) : List Event :=
  (List.replicate polls (asmRead .status)).flatten ++ [.engine] ++ asmRead .status

/-- `LDV bank, L, x`: write limbs 0 to L-1 of a bank, in increasing order (R88). -/
def asmLdv (bk : BankId) (l x : Nat) : List Event :=
  (List.range l).map fun i => asmWriteAt (bk.base + 8 * i) (BitVec.ofNat 64 (x >>> (64 * i)))

/-- `CFGSET L=l, K=s, IRQ=q` (R88). -/
def asmCfgSet (l s q : Nat) : List Event := asmWrite .cfg (BitVec.ofNat 64 (q <<< 16 ||| s <<< 8 ||| l))

/-- `CLRDONE` (R88). -/
def asmClrDone : List Event := asmWrite .status 0x2

/-- `CLRBUSYERR` (R88). -/
def asmClrBusyErr : List Event := asmWrite .status 0x4

/-- `TOMONT L, x, rr` (R88). -/
def asmToMont (l x rr polls : Nat) : List Event :=
  asmLdv .a l x ++ asmLdv .b l rr ++ asmCmd .montmul ++ asmWait polls

/-- `FROMMONT L, y` (R88). -/
def asmFromMont (l y polls : Nat) : List Event := asmLdv .a l y ++ asmLdv .b l 1 ++ asmCmd .montmul ++ asmWait polls

/-- `MONTSQR L, x` (R88). -/
def asmMontSqr (l x polls : Nat) : List Event := asmLdv .a l x ++ asmLdv .b l x ++ asmCmd .montmul ++ asmWait polls

end Sys2Proof.Machine
end

