-- ==== Sys2Proof/Safety.lean ====
section
/-! DEFINITION. What statements about the machine are phrased in: a run with no model fault recorded, the invariant of the machine, what the host sees of a command, and which bytes of the window a command may write. -/

namespace Sys2Proof.Machine

/-- No model fault has been recorded: the premise of a claim about results that must not rest on unwritten limbs or on
the data of a failed read (spec/60_exceptions.md R212). -/
def State.faultFree (s : State) : Bool := !s.unwrittenOperand && !s.busErrorRead

/-- What a completed command leaves for the host to read, STATUS apart: RES, EXPBITS, WINK and OPCOUNT
(spec/30_encoding.md R84). -/
def State.outputs (s : State) : Bank × BitVec 11 × BitVec 3 × BitVec 32 × BitVec 32 :=
  (s.bankRes, s.expBits, s.winK, s.sqr, s.mul)

/-- What commands read and only the host writes: N0 and the banks N, RR, A and B (spec/10_state.md R32). -/
def State.inputs (s : State) : Word × Bank × Bank × Bank × Bank := (s.n0, s.bankN, s.bankRR, s.bankA, s.bankB)

/-- The three fields of CFG (spec/10_state.md R25). -/
def State.cfgFields (s : State) : BitVec 5 × BitVec 4 × Bool := (s.lcount, s.ksel, s.irqEn)

/-- The invariant of the machine, kept by every step from every state that meets it. -/
structure State.Inv (s : State) : Prop where
  /-- An accepted command has cleared DONE and ERRCODE, and nothing sets them before it completes (R24, R240). -/
  busyClears : s.busy = true → s.done = false ∧ s.errCode = .none
  /-- CFG cannot change while a command runs, so the latched fields equal it (R240, R245). -/
  latched : s.busy = true → s.internals.lcount = s.lcount ∧ s.internals.ksel = s.ksel
  /-- ENG.L is the effective limb count of the running command, where it has one (R41, R85). -/
  limbCount : s.busy = true → ∀ l, limbCountOf Config.clampLcount s.internals.op s.lcount = some l →
    s.internals.limbCount = l
  /-- ENG.k is the effective window width of the running command, where it has one (R41, R86). -/
  width : s.busy = true → ∀ l k, limbCountOf Config.clampLcount s.internals.op s.lcount = some l →
    widthOf s.internals.op s.ksel (bitLen (s.limbs .b l) l) = some k → s.internals.width = k
  /-- EXPBITS lies in 0..1024 (R27). -/
  expBitsRange : s.expBits.toNat ≤ 1024
  /-- WINK is 0, 1, 3, 4 or 5 (R28). -/
  winKRange : s.winK ∈ [0, 1, 3, 4, 5]
  /-- WINK = 0 means that no command has written EXPBITS since reset (R28). -/
  winKZero : s.winK = 0 → s.expBits = 0
  /-- The largest SQR is 1024 (spec/42_modexp.md R178). -/
  sqrRange : s.sqr.toNat ≤ 1024
  /-- The largest MUL is 1 + 15 + 1024 + 1 (spec/42_modexp.md R178). -/
  mulRange : s.mul.toNat ≤ 1 + 15 + 1024 + 1
  /-- RES is written whole or not at all (R31, R33). -/
  resWhole : (∀ i, i < 16 → s.isWritten .res i = true) ∨ (∀ i, i < 16 → s.isWritten .res i = false)
  /-- Only a running command carries the mark of R246 (log entry 11). -/
  inFlightBusy : s.inFlight = true → s.busy = true

/-- Byte `a` of the window lies in a register or bank that a command may write: STATUS for every command, and its
outputs of spec/30_encoding.md R84. -/
def commandMayWrite (i : Instr) (a : Nat) : Bool :=
  let status := decide (0x010 ≤ a ∧ a < 0x018)
  let scan := decide (0x028 ≤ a ∧ a < 0x038)
  let opCount := decide (0x038 ≤ a ∧ a < 0x040)
  let res := decide (0x300 ≤ a ∧ a < 0x380)
  match i with
  | .montmul => status || opCount || res
  | .bitlen => status || scan || opCount
  | .modexp4 => status || scan || opCount || res
  | .modexpg => status || scan || opCount || res

/-- The banks a command reads, limbs 0 to L-1 of each (spec/30_encoding.md R84). -/
def commandReads : Instr → List BankId
  | .montmul => [.n, .a, .b]
  | .bitlen => [.b]
  | .modexp4 => [.n, .rr, .a, .b]
  | .modexpg => [.n, .rr, .a, .b]

/-- A scheduled event is not a bus access outside the register window. -/
def Event.inWindow : Event → Bool
  | .read addr _ => (windowOffset addr).isSome
  | .write addr _ _ => (windowOffset addr).isSome
  | .reset => true
  | .engine => true
  | .issue addr _ _ => (windowOffset addr).isSome
  | .land _ => true

/-- The engine takes its step at the next point of the total order. -/
def State.engineNext (s : State) : Bool :=
  match s.schedule with
  | [] => true
  | .engine :: _ => true
  | _ => false

/-- The reset input is asserted at the next point of the total order. -/
def State.resetNext (s : State) : Bool :=
  match s.schedule with
  | .reset :: _ => true
  | _ => false

end Sys2Proof.Machine
end

