-- ==== Sys2Proof/Certificates/Slice0/Obligations.lean ====
section
/-! DEFINITION. The statements for the provers, from the numbered rules of spec/.
Where a statement reads a limb that nothing has written, it reads the free value of log entry 2, and the run goes on by
log entry 6. -/

open Sys2Proof Sys2Proof.Machine

/-! ### Command words (spec/30_encoding.md) -/

/-- R81, R82, R83: the four assigned words, and the illegal words of spec/95_test_vectors.md ER-1 to ER-5. -/
def Obligations.SpecWordsDecode : Prop :=
  decode 0x0000000000000001 = .instr .montmul ∧ decode 0x0000000000000002 = .instr .bitlen ∧
  decode 0x0000000000000003 = .instr .modexp4 ∧ decode 0x0000000000000004 = .instr .modexpg ∧
  decode 0x0000000000000000 = .illegal ∧ decode 0x0000000000000005 = .illegal ∧
  decode 0x000000000000000F = .illegal ∧ decode 0x0000000000000013 = .illegal ∧
  decode 0x8000000000000003 = .illegal

/-- R80 to R82: decoding an encoded command gives it back, and no other word decodes to it. -/
def Obligations.DecodeInvertsEncodeExactly : Prop :=
  ∀ (i : Instr) (v : Word), i.wellFormed = true →
    (decode v = .instr i ↔ v = encode i) ∧ decodeTableWord 64 (encode i).toNat = some i

/-- R204 over the words of R83: an illegal word written to CMD of an idle engine is accepted, and whatever the state
is, the engine's step completes it with ERRCODE = 1 and changes nothing else. -/
def Obligations.IllegalWordCompletesWithIllegalOp : Prop :=
  ∀ (s : State) (v : Word), (v.toNat / 16 ≠ 0 ∨ v.toNat % 16 = 0 ∨ 5 ≤ v.toNat % 16) →
    (s.busy = false → (s.writeTarget .cmd v).busy = true ∧ (s.writeTarget .cmd v).internals.op = .illegal) ∧
    (s.busy = true → s.internals.op = decode v →
      ∃ t, engineTurn s = .next t ∧ t.errCode = .illegalOp ∧ t.statusWord.extractLsb' 4 4 = 1 ∧ t.done = true ∧
        t.busy = false ∧ t.busyErr = s.busyErr ∧ t.outputs = s.outputs ∧ t.inputs = s.inputs ∧
        t.cfgFields = s.cfgFields ∧ t.unwrittenOperand = s.unwrittenOperand)

/-! ### The operand decoders (spec/30_encoding.md, spec/41_bitlen_window.md) -/

/-- R85: the effective limb count under both settings of CLAMP_LCOUNT; MODEXP4 runs at 4 and does not read LCOUNT. -/
def Obligations.EffectiveLimbCount : Prop :=
  ∀ (f : BitVec 5) (clamp : Bool),
    (f.toNat = 0 → effL clamp f = none) ∧
    (1 ≤ f.toNat → f.toNat ≤ 16 → effL clamp f = some f.toNat) ∧
    (17 ≤ f.toNat → effL true f = some 16) ∧
    (17 ≤ f.toNat → effL false f = none) ∧
    (∀ i : Instr, limbCountOf clamp (.instr i) f = if i = .modexp4 then some 4 else effL clamp f)

/-- R86: the effective window width; MODEXPG runs at k = 1 and does not read KSEL. -/
def Obligations.EffectiveWindowWidth : Prop :=
  ∀ (f : BitVec 4) (expLen : Nat),
    (f.toNat = 0 → effK f expLen = some (selectK expLen)) ∧
    (f.toNat = 1 ∨ f.toNat = 3 ∨ f.toNat = 4 ∨ f.toNat = 5 → effK f expLen = some f.toNat) ∧
    (f.toNat = 2 ∨ 6 ≤ f.toNat → effK f expLen = none) ∧
    widthOf (.instr .bitlen) f expLen = effK f expLen ∧ widthOf (.instr .modexp4) f expLen = effK f expLen ∧
    widthOf (.instr .modexpg) f expLen = some 1

/-- R142: the window-width policy, which never selects 2. -/
def Obligations.WindowPolicyThresholds : Prop :=
  ∀ expLen : Nat,
    (expLen < 18 → selectK expLen = 1) ∧ (18 ≤ expLen → expLen < 48 → selectK expLen = 3) ∧
    (48 ≤ expLen → expLen < 144 → selectK expLen = 4) ∧ (144 ≤ expLen → selectK expLen = 5) ∧
    selectK expLen ≠ 2

/-- R140, R141: the bit length of the first `l` limbs. It is 0 exactly for the value 0, and otherwise one more than the
base-2 logarithm, with the highest 1 bit just below it; it is at most 64·l, and limbs from `l` up never matter. -/
def Obligations.BitLenLaws : Prop :=
  ∀ (e more : Limbs),
    (bitLen e e.length = 0 ↔ val e = 0) ∧
    (val e ≠ 0 → bitLen e e.length = Nat.log2 (val e) + 1 ∧ 2 ^ (bitLen e e.length - 1) ≤ val e ∧
      bitAt e (bitLen e e.length - 1) = true) ∧
    val e < 2 ^ bitLen e e.length ∧ bitLen e e.length ≤ 64 * e.length ∧
    bitLen (e ++ more) e.length = bitLen e e.length

/-! ### The Montgomery core (spec/40_montmul.md) -/

/-- R11, R112: no column sum overflows 128 bits and no top-word sum overflows 65 bits, so every split is exact. -/
def Obligations.ColumnSumsSplitExactly : Prop :=
  ∀ t x y c : Word,
    mac t x y c < 2 ^ 128 ∧ t.toNat + c.toNat < 2 ^ 65 ∧
    2 ^ 64 * (hi64 (mac t x y c)).toNat + (lo64 (mac t x y c)).toNat = mac t x y c ∧
    2 ^ 64 * (hi64 (t.toNat + c.toNat)).toNat + (lo64 (t.toNat + c.toNat)).toNat = t.toNat + c.toNat

/-- R111: in contract, a row of CIOS starts and ends with the accumulator below 2n, ACC[L] at most 1 and ACC[L+1] = 0; in
between ACC[L+1] is at most 1 and nothing is discarded: each multiply-accumulate adds its exact product, the low word is 0
when it is shifted out, and the shift divides by 2^64. The last clause is the accumulator after all rows. -/
def Obligations.CiosRowCarryBounds : Prop :=
  ∀ (n0 : Word) (n b : Limbs), modulusOdd n = true → n0Correct n0 n = true → b.length = n.length → val b < val n →
    (∀ (acc : Acc) (ai : Word), acc.limbs.length = n.length → acc.value < 2 * val n → acc.top.toNat ≤ 1 →
      acc.overflow = 0 →
      let added := acc.addMul ai b
      let m := reductionMultiplier n0 added
      let reduced := added.addMul m n
      added.value = acc.value + ai.toNat * val b ∧ added.overflow.toNat ≤ 1 ∧
      reduced.value = added.value + m.toNat * val n ∧ reduced.overflow.toNat ≤ 1 ∧ reduced.limbs.headD 0 = 0 ∧
      (ciosRow n0 n b acc ai) = reduced.shift ∧ reduced.value = 2 ^ 64 * reduced.shift.value ∧
      reduced.shift.limbs.length = n.length ∧ reduced.shift.value < 2 * val n ∧ reduced.shift.top.toNat ≤ 1 ∧
      reduced.shift.overflow = 0) ∧
    (∀ a : Limbs,
      let acc := a.foldl (ciosRow n0 n b) (Acc.zero n.length)
      acc.value < 2 * val n ∧ acc.top.toNat ≤ 1 ∧ acc.overflow = 0)

/-- R108, R109: for any accumulator as wide as n with ACC[L+1] = 0, the comparison is the comparison of values with
ACC[L] included; and where the value is below 2n, the conditional subtraction reduces it modulo n, so a value
equal to n gives 0. -/
def Obligations.ConditionalSubtractionReduces : Prop :=
  ∀ (acc : Acc) (n : Limbs), acc.limbs.length = n.length → acc.overflow = 0 →
    (accGe acc n = true ↔ val n ≤ acc.value) ∧
    (acc.value < 2 * val n → val (condSub acc n) = acc.value % val n ∧ (condSub acc n).length = n.length)

/-- R114: in contract MM returns the Montgomery product, reduced, where the inverse of R modulo n exists. -/
def Obligations.MontgomeryProductInContract : Prop :=
  ∀ (n0 : Word) (n a b : Limbs), a.length = n.length → b.length = n.length → mmInContract n0 n a b = true →
    (∃ rInv, radix n.length * rInv % val n = 1 % val n) ∧
    (∀ rInv, radix n.length * rInv % val n = 1 % val n →
      val (mm n0 n a b) = val a * val b * rInv % val n ∧ val (mm n0 n a b) < val n ∧
      (mm n0 n a b).length = n.length)

/-- R118: into the Montgomery domain and back out gives the value again. -/
def Obligations.MontgomeryRoundTrip : Prop :=
  ∀ (n0 : Word) (n x : Limbs), x.length = n.length → modulusOdd n = true → n0Correct n0 n = true → 1 < val n →
    val x < val n →
    mm n0 n (mm n0 n x (vecL n.length (radix n.length * radix n.length % val n))) (oneL n.length) = x

/-! ### MONTMUL (R121) -/

/-- R113, R114, R121: MONTMUL in contract completes without an error: RES[0..L-1] takes the reduced Montgomery product,
RES[L..15] takes 0, OPCOUNT counts one MUL, EXPBITS and WINK keep their values. No operand write was in flight at
acceptance: R246 and item U9 make that a premise of every claim about a result. -/
def Obligations.MontmulInContractCompletes : Prop :=
  ∀ (s : State) (l : Nat), effL Config.clampLcount s.internals.lcount = some l → s.inFlight = false →
    mmInContract s.n0 (s.limbs .n l) (s.limbs .a l) (s.limbs .b l) = true →
    ∃ t, exec .montmul s = .next t ∧
      t.limbs .res l = mm s.n0 (s.limbs .n l) (s.limbs .a l) (s.limbs .b l) ∧
      radix l * val (t.limbs .res l) % val (s.limbs .n l)
        = val (s.limbs .a l) * val (s.limbs .b l) % val (s.limbs .n l) ∧
      val (t.limbs .res l) < val (s.limbs .n l) ∧
      (∀ i, l ≤ i → i < 16 → t.limb .res i = 0) ∧ (∀ i, i < 16 → t.isWritten .res i = true) ∧
      t.opCountWord = 0x0000000100000000 ∧ t.expBits = s.expBits ∧ t.winK = s.winK ∧
      t.errCode = .none ∧ t.done = true ∧ t.busy = false

/-- R115, R246: with an odd modulus but n0 wrong or an operand not below n, or with an operand write in flight at
acceptance, MONTMUL completes without an error, the result limbs are unconstrained values (log entry 7) and every other
effect is exact. For the operand write in flight R246 says only that the result is a draw: that the draw is the limbs
RES[0..L-1] alone, and that ERRCODE, OPCOUNT, EXPBITS, WINK and RES[L..15] are exact then too, is the model's reading of
item U9, log entry 11. -/
def Obligations.MontmulOutOfContractCompletes : Prop :=
  ∀ (s : State) (l : Nat), effL Config.clampLcount s.internals.lcount = some l → s.modulusEven = false →
    s.inFlight = true ∨ mmInContract s.n0 (s.limbs .n l) (s.limbs .a l) (s.limbs .b l) = false →
    ∃ t, exec .montmul s = .next t ∧
      (∀ i, i < l → t.limb .res i
        = Config.undefinedLimb .montmul s.draws [[s.n0], s.limbs .n l, s.limbs .a l, s.limbs .b l] i) ∧
      (∀ i, l ≤ i → i < 16 → t.limb .res i = 0) ∧ (∀ i, i < 16 → t.isWritten .res i = true) ∧
      t.opCountWord = 0x0000000100000000 ∧ t.expBits = s.expBits ∧ t.winK = s.winK ∧
      t.errCode = .none ∧ t.done = true ∧ t.busy = false

/-! ### BITLEN (R145) -/

/-- R145: BITLEN completes with the bit length of B in EXPBITS, the effective width in WINK, OPCOUNT = 0 and RES as it was.
With an operand write in flight at acceptance R246 says only that the result is a draw: that EXPBITS, WINK and OPCOUNT
are exact then too is the model's reading of item U9, log entry 11. -/
def Obligations.BitlenCompletes : Prop :=
  ∀ (s : State) (l k : Nat), effL Config.clampLcount s.internals.lcount = some l →
    effK s.internals.ksel (bitLen (s.limbs .b l) l) = some k →
    ∃ t, exec .bitlen s = .next t ∧
      t.expBitsWord.toNat = bitLen (s.limbs .b l) l ∧ t.winKWord.toNat = k ∧ t.opCountWord = 0 ∧
      t.bankRes = s.bankRes ∧ t.errCode = .none ∧ t.done = true ∧ t.busy = false

/-! ### The odd-power table and the driver (spec/42_modexp.md) -/

/-- R160, R162: the table for width k has 2^(k-1) entries, entry t holds the Montgomery form of base^(2t+1), and building
it takes one squaring and 2^(k-1) - 1 multiplications when k > 1 and no product when k = 1. -/
def Obligations.OddPowerTableEntries : Prop :=
  ∀ (n0 : Word) (n baseMont : Limbs) (base k : Nat), baseMont.length = n.length → modulusOdd n = true →
    n0Correct n0 n = true → k ∈ [1, 3, 4, 5] → val baseMont = base * radix n.length % val n →
    (buildTable (mm n0 n) baseMont k).1.length = 2 ^ (k - 1) ∧
    (∀ t, t < 2 ^ (k - 1) → ((buildTable (mm n0 n) baseMont k).1.getD t []).length = n.length ∧
      val ((buildTable (mm n0 n) baseMont k).1.getD t []) = base ^ (2 * t + 1) * radix n.length % val n) ∧
    (buildTable (mm n0 n) baseMont k).2 = if k = 1 then (0, 0) else (1, 2 ^ (k - 1) - 1)

/-- R165: the window read from one limb or from two is the `len` bits of the exponent's value from bit `pos` downward. -/
def Obligations.WindowExtractionIsShift : Prop :=
  ∀ (e : Limbs) (pos len : Nat), 1 ≤ len → len ≤ 5 → len ≤ pos + 1 →
    extractWindow e pos len = val e / 2 ^ (pos + 1 - len) % 2 ^ len

/-- R165, R166, R171 (a): the window at a 1 bit has length min(k, pos+1), is odd and below 2^k, so its table index is in
range; its squarings owed lie in 1..len, and the bits it consumes are the exponent's bits pos..pos-nSq+1. -/
def Obligations.WindowIsOddAndInTable : Prop :=
  ∀ (e : Limbs) (k pos : Nat), k ∈ [1, 3, 4, 5] → bitAt e pos = true →
    (windowAt e k pos).len = min k (pos + 1) ∧ (windowAt e k pos).w % 2 = 1 ∧ (windowAt e k pos).w < 2 ^ k ∧
    ((windowAt e k pos).w - 1) / 2 < 2 ^ (k - 1) ∧ 1 ≤ (windowAt e k pos).nSq ∧
    (windowAt e k pos).nSq ≤ (windowAt e k pos).len ∧
    (windowAt e k pos).w = val e / 2 ^ (pos + 1 - (windowAt e k pos).nSq) % 2 ^ (windowAt e k pos).nSq

/-- R170, R171: one round of the driver from a cursor at a 1 bit consumes at least one bit, keeps the identity flag
cleared from then on, and ends at the next 1 bit or past bit 0; the whole scan ends past bit 0. -/
def Obligations.ScanReachesTheEnd : Prop :=
  ∀ (mul : Limbs → Limbs → Limbs) (tbl : List Limbs) (e : Limbs) (k : Nat) (d : Scan), k ∈ [1, 3, 4, 5] →
    0 < d.left → bitAt e (d.left - 1) = true →
    (scanRound mul tbl e k d).left < d.left ∧ (scanRound mul tbl e k d).isId = false ∧
    (0 < (scanRound mul tbl e k d).left → bitAt e ((scanRound mul tbl e k d).left - 1) = true) ∧
    (scanLoop mul tbl e k d.left d).left = 0

/-- R178: the exact operation counts, from the exponent and k alone, and their bounds for at most 16 limbs. -/
def Obligations.ExponentiationOperationCounts : Prop :=
  ∀ (n0 : Word) (n base e rr : Limbs) (k : Nat), k ∈ [1, 3, 4, 5] → n.length ≤ 16 →
    (bitLen e n.length = 0 → (modExp n0 n base e rr k).sqr = 0 ∧ (modExp n0 n base e rr k).mul = 0) ∧
    (0 < bitLen e n.length → ∃ first rest, windowsOf e n.length k = first :: rest ∧
      (modExp n0 n base e rr k).sqr = (if 1 < k then 1 else 0) + (bitLen e n.length - first.nSq) ∧
      (modExp n0 n base e rr k).mul
        = 1 + (if 1 < k then 2 ^ (k - 1) - 1 else 0) + ((first :: rest).length - 1) + 1) ∧
    (modExp n0 n base e rr k).sqr ≤ 1024 ∧ (modExp n0 n base e rr k).mul ≤ 1 + 15 + 1024 + 1

/-- R182 (corner cases): with k = 1 and E > 0, SQR = E - 1 and MUL = popcount(e) + 1. -/
def Obligations.BinaryExponentiationCounts : Prop :=
  ∀ (n0 : Word) (n base e rr : Limbs), 0 < bitLen e n.length →
    (modExp n0 n base e rr 1).sqr = bitLen e n.length - 1 ∧
    (modExp n0 n base e rr 1).mul = ((List.range (bitLen e n.length)).filter (bitAt e)).length + 1

/-- R179: for every input an exponentiation performs at most 2 + 15 + 1 + 2·E products. -/
def Obligations.ExponentiationProductBound : Prop :=
  ∀ (n0 : Word) (n base e rr : Limbs) (k : Nat), k ∈ [1, 3, 4, 5] →
    (modExp n0 n base e rr k).sqr + (modExp n0 n base e rr k).mul ≤ 2 + 15 + 1 + 2 * bitLen e n.length

/-- R176: in contract and for E > 0 the result is base^e mod n, reduced; for E = 0 it is one_L. -/
def Obligations.ExponentiationInContract : Prop :=
  ∀ (n0 : Word) (n base e rr : Limbs) (k : Nat), base.length = n.length → e.length = n.length →
    rr.length = n.length → k ∈ [1, 3, 4, 5] → modExpInContract n0 n base rr = true →
    (modExp n0 n base e rr k).r.length = n.length ∧
    (0 < bitLen e n.length → val (modExp n0 n base e rr k).r = val base ^ val e % val n ∧
      val (modExp n0 n base e rr k).r < val n) ∧
    (bitLen e n.length = 0 → (modExp n0 n base e rr k).r = oneL n.length)

/-- R144, R176: in contract the result does not depend on the window width. -/
def Obligations.ResultIndependentOfWindowWidth : Prop :=
  ∀ (n0 : Word) (n base e rr : Limbs) (j k : Nat), base.length = n.length → e.length = n.length →
    rr.length = n.length → j ∈ [1, 3, 4, 5] → k ∈ [1, 3, 4, 5] → modExpInContract n0 n base rr = true →
    (modExp n0 n base e rr j).r = (modExp n0 n base e rr k).r

/-! ### MODEXP4 and MODEXPG (R180, R182) -/

/-- R176, R180: MODEXP4 in contract with a nonzero exponent completes with base^e mod n at four limbs, EXPBITS = E,
WINK = k and the operation counts in OPCOUNT. No operand write was in flight at acceptance (R246, item U9). -/
def Obligations.Modexp4InContractCompletes : Prop :=
  ∀ (s : State) (k : Nat), effK s.internals.ksel (bitLen (s.limbs .b 4) 4) = some k → s.inFlight = false →
    modExpInContract s.n0 (s.limbs .n 4) (s.limbs .a 4) (s.limbs .rr 4) = true → 0 < bitLen (s.limbs .b 4) 4 →
    ∃ t, exec .modexp4 s = .next t ∧
      val (t.limbs .res 4) = val (s.limbs .a 4) ^ val (s.limbs .b 4) % val (s.limbs .n 4) ∧
      (∀ i, 4 ≤ i → i < 16 → t.limb .res i = 0) ∧ (∀ i, i < 16 → t.isWritten .res i = true) ∧
      t.expBitsWord.toNat = bitLen (s.limbs .b 4) 4 ∧ t.winKWord.toNat = k ∧
      t.sqr.toNat = (modexpRun 4 k s).sqr ∧ t.mul.toNat = (modexpRun 4 k s).mul ∧
      t.errCode = .none ∧ t.done = true ∧ t.busy = false

/-- R176, R182: MODEXPG in contract with a nonzero exponent completes with base^e mod n at L limbs, EXPBITS = E, WINK = 1
and the operation counts in OPCOUNT. No operand write was in flight at acceptance (R246, item U9). -/
def Obligations.ModexpgInContractCompletes : Prop :=
  ∀ (s : State) (l : Nat), effL Config.clampLcount s.internals.lcount = some l → s.inFlight = false →
    modExpInContract s.n0 (s.limbs .n l) (s.limbs .a l) (s.limbs .rr l) = true → 0 < bitLen (s.limbs .b l) l →
    ∃ t, exec .modexpg s = .next t ∧
      val (t.limbs .res l) = val (s.limbs .a l) ^ val (s.limbs .b l) % val (s.limbs .n l) ∧
      (∀ i, l ≤ i → i < 16 → t.limb .res i = 0) ∧ (∀ i, i < 16 → t.isWritten .res i = true) ∧
      t.expBitsWord.toNat = bitLen (s.limbs .b l) l ∧ t.winKWord.toNat = 1 ∧
      t.sqr.toNat = (modexpRun l 1 s).sqr ∧ t.mul.toNat = (modexpRun l 1 s).mul ∧
      t.errCode = .none ∧ t.done = true ∧ t.busy = false

/-- R163: with a zero exponent and an odd modulus both commands write one_L and perform no product, whatever the base,
rr and n0 are. No operand write was in flight at acceptance (R246, item U9). -/
def Obligations.ZeroExponentGivesOne : Prop :=
  ∀ s : State, s.modulusEven = false → s.inFlight = false →
    (∀ k, effK s.internals.ksel 0 = some k → bitLen (s.limbs .b 4) 4 = 0 →
      ∃ t, exec .modexp4 s = .next t ∧ t.limbs .res 4 = oneL 4 ∧ (∀ i, 4 ≤ i → i < 16 → t.limb .res i = 0) ∧
        t.opCountWord = 0 ∧ t.expBits = 0 ∧ t.winKWord.toNat = k ∧ t.errCode = .none) ∧
    (∀ l, effL Config.clampLcount s.internals.lcount = some l → bitLen (s.limbs .b l) l = 0 →
      ∃ t, exec .modexpg s = .next t ∧ t.limbs .res l = oneL l ∧ (∀ i, l ≤ i → i < 16 → t.limb .res i = 0) ∧
        t.opCountWord = 0 ∧ t.expBits = 0 ∧ t.winKWord.toNat = 1 ∧ t.errCode = .none)

/-- R177, R246: with an odd modulus, out of contract with a nonzero exponent, or with an operand write in flight at
acceptance, both commands complete without an error, the result limbs are unconstrained values (log entry 7), and E, k,
the counters and the zeroed limbs are exact. For the operand write in flight R246 says only that the result is a draw:
that E, k, the counters, the zeroed limbs and the code are exact then too, and that with E = 0 the result is then a draw
and not the one_L of R163 and R177, is the model's reading of R246 and item U9, log entry 11. -/
def Obligations.ExponentiationOutOfContractCompletes : Prop :=
  ∀ s : State, s.modulusEven = false →
    (∀ k, effK s.internals.ksel (bitLen (s.limbs .b 4) 4) = some k →
      (s.inFlight = true ∨
        (modExpInContract s.n0 (s.limbs .n 4) (s.limbs .a 4) (s.limbs .rr 4) = false ∧ 0 < bitLen (s.limbs .b 4) 4)) →
      ∃ t, exec .modexp4 s = .next t ∧
        (∀ i, i < 4 → t.limb .res i = Config.undefinedLimb .modexp4 s.draws
          [[s.n0], s.limbs .n 4, s.limbs .a 4, s.limbs .b 4, s.limbs .rr 4] i) ∧
        (∀ i, 4 ≤ i → i < 16 → t.limb .res i = 0) ∧ t.expBitsWord.toNat = bitLen (s.limbs .b 4) 4 ∧
        t.winKWord.toNat = k ∧ t.sqr.toNat = (modexpRun 4 k s).sqr ∧ t.mul.toNat = (modexpRun 4 k s).mul ∧
        t.errCode = .none ∧ t.done = true ∧ t.busy = false) ∧
    (∀ l, effL Config.clampLcount s.internals.lcount = some l →
      (s.inFlight = true ∨
        (modExpInContract s.n0 (s.limbs .n l) (s.limbs .a l) (s.limbs .rr l) = false ∧ 0 < bitLen (s.limbs .b l) l)) →
      ∃ t, exec .modexpg s = .next t ∧
        (∀ i, i < l → t.limb .res i = Config.undefinedLimb .modexpg s.draws
          [[s.n0], s.limbs .n l, s.limbs .a l, s.limbs .b l, s.limbs .rr l] i) ∧
        (∀ i, l ≤ i → i < 16 → t.limb .res i = 0) ∧ t.expBitsWord.toNat = bitLen (s.limbs .b l) l ∧
        t.winKWord.toNat = 1 ∧ t.sqr.toNat = (modexpRun l 1 s).sqr ∧ t.mul.toNat = (modexpRun l 1 s).mul ∧
        t.errCode = .none ∧ t.done = true ∧ t.busy = false)

/-- R183: MODEXP4 with any legal KSEL and MODEXPG at L = 4 write the same RES for the same in-contract operands. No operand
write was in flight at acceptance (R246, item U9). -/
def Obligations.FixedAndGenericEnginesAgree : Prop :=
  ∀ (s p q : State), s.internals.lcount = 4 → kselLegal s.internals.ksel = true → s.inFlight = false →
    modExpInContract s.n0 (s.limbs .n 4) (s.limbs .a 4) (s.limbs .rr 4) = true →
    exec .modexp4 s = .next p → exec .modexpg s = .next q → p.bankRes = q.bankRes

/-! ### Frames, errors and unwritten operands -/

/-- R32, R84: a command changes no byte of the window outside STATUS and its outputs, and no input (its written marks
included), no field of CFG and no BUSYERR; the model's own schedule, response, epoch and fabric stay, and a model
fault once recorded stays recorded. That an unwritten limb keeps its free value over the completion is the model's
reading, log entry 2. The bytes of reserved offsets, which the spec does not give, are 0 in this view, log entry 9. -/
def Obligations.CommandFrame : Prop :=
  ∀ (i : Instr) (s t : State), exec i s = .next t →
    (∀ a, a < 4096 → commandMayWrite i a = false → t.windowByte a = s.windowByte a) ∧
    t.inputs = s.inputs ∧ t.cfgFields = s.cfgFields ∧ t.busyErr = s.busyErr ∧ t.schedule = s.schedule ∧
    t.response = s.response ∧ t.epoch = s.epoch ∧ t.busErrorRead = s.busErrorRead ∧ t.fabric = s.fabric ∧
    (s.unwrittenOperand = true → t.unwrittenOperand = true)

/-- R207, R201, R202, R203: the one code each command reports, the first failing check in the order of the rule. That
the code is exact with an operand write in flight at acceptance too is the model's reading of item U9, log entry 11. -/
def Obligations.ErrorCodesByPriority : Prop :=
  ∀ s : State,
    let badLcount := s.internals.lcount.toNat = 0 ∨ (17 ≤ s.internals.lcount.toNat ∧ Config.clampLcount = false)
    let badKsel := s.internals.ksel.toNat = 2 ∨ 6 ≤ s.internals.ksel.toNat
    let even := (s.limb .n 0).toNat % 2 = 0
    (∃ t, exec .montmul s = .next t ∧
      (badLcount → t.errCode = .badLcount) ∧ (¬ badLcount → even → t.errCode = .evenModulus) ∧
      (¬ badLcount → ¬ even → t.errCode = .none)) ∧
    (∃ t, exec .bitlen s = .next t ∧
      (badLcount → t.errCode = .badLcount) ∧ (¬ badLcount → badKsel → t.errCode = .badKsel) ∧
      (¬ badLcount → ¬ badKsel → t.errCode = .none)) ∧
    (∃ t, exec .modexp4 s = .next t ∧
      (badKsel → t.errCode = .badKsel) ∧ (¬ badKsel → even → t.errCode = .evenModulus) ∧
      (¬ badKsel → ¬ even → t.errCode = .none)) ∧
    (∃ t, exec .modexpg s = .next t ∧
      (badLcount → t.errCode = .badLcount) ∧ (¬ badLcount → even → t.errCode = .evenModulus) ∧
      (¬ badLcount → ¬ even → t.errCode = .none)) ∧
    (s.busy = true → s.internals.op = .illegal → ∃ t, engineTurn s = .next t ∧ t.errCode = .illegalOp)

/-- R209, R241: every engine step of a busy engine completes the command; where it reports an error, RES, EXPBITS, WINK
and OPCOUNT keep their values. -/
def Obligations.ErrorCompletionKeepsOutputs : Prop :=
  ∀ s : State, s.busy = true →
    ∃ t, engineTurn s = .next t ∧ t.done = true ∧ t.busy = false ∧ t.inputs = s.inputs ∧ t.cfgFields = s.cfgFields ∧
      t.busyErr = s.busyErr ∧ (t.errCode ≠ .none → t.outputs = s.outputs)

/-- R31: limbs from L up of an input bank never affect a command's outputs or its code; a command that completes without
an error other than BITLEN writes all 16 limbs of RES, with 0 from L up, and BITLEN writes none. Where the result limbs are free values
(out of contract, or with an operand write in flight), that the two runs have equal ones is the model's choice, log
entry 7: a draw is fixed by the draw counter and the operands. That the other outputs, RES from L up and the code are
exact with an operand write in flight is the model's reading, log entry 11. -/
def Obligations.LimbsAboveLNeverMatter : Prop :=
  ∀ (i : Instr) (s : State) (l : Nat), limbCountOf Config.clampLcount (.instr i) s.internals.lcount = some l →
    (∀ (bk : BankId) (j : Nat) (v : Word), l ≤ j → j < 16 → bk ≠ .res →
      ∃ p q, exec i s = .next p ∧ exec i (s.setLimb bk j v) = .next q ∧ p.outputs = q.outputs ∧
        p.errCode = q.errCode) ∧
    (∃ t, exec i s = .next t ∧
      (i ≠ .bitlen → t.errCode = .none →
        (∀ j, j < 16 → t.isWritten .res j = true) ∧ (∀ j, l ≤ j → j < 16 → t.limb .res j = 0)) ∧
      (i = .bitlen → t.bankRes = s.bankRes))

/-- R33, R212: a command that completes without an error records UnwrittenOperand exactly when one of the limbs 0..L-1 of
the banks it reads is unwritten (or it was recorded before), and it goes on with whatever the limb holds. That it goes
on is the model's reading, log entry 6. -/
def Obligations.UnwrittenOperandIsRecorded : Prop :=
  ∀ (i : Instr) (s : State) (l : Nat), limbCountOf Config.clampLcount (.instr i) s.internals.lcount = some l →
    ∃ t, exec i s = .next t ∧ (t.errCode = .none →
      (t.unwrittenOperand = true ↔
        s.unwrittenOperand = true ∨ ∃ bk ∈ commandReads i, ∃ j, j < l ∧ s.isWritten bk j = false))

/-! ### The step and the command lifecycle (spec/70_reset_and_hazards.md) -/

/-- R241: when the engine is busy with a command and its step is the next point of the total order, a step is that
command's completion, at the state with that point taken off the schedule. That an empty schedule gives the engine its
turn is the model's choice, log entry 4. -/
def Obligations.StepRunsLatchedCommand : Prop :=
  ∀ (s : State) (i : Instr), s.busy = true → s.internals.op = .instr i → s.engineNext = true →
    step s = exec i (s.withSchedule s.schedule.tail)

/-- Log entry 12: a command word placed by withFetchWord is run by the very next step, right after its acceptance. -/
def Obligations.FetchedWordRunsNext : Prop :=
  ∀ (s : State) (nbits w : Nat) (i : Instr), decodeTableWord nbits w = some i →
    step (s.withFetchWord nbits w) = exec i ((s.accept (.instr i)).withSchedule s.schedule)

/-- R240: a host write of a word to CMD of an idle engine is accepted in one step: BUSY rises, DONE, ERRCODE and IRQ
clear, the decoded word, LCOUNT and KSEL are latched, and nothing else the host can see changes. -/
def Obligations.CommandWriteIsAccepted : Prop :=
  ∀ (s : State) (v : Word) (rest : List Event), s.busy = false →
    ∃ t, step (s.withSchedule (.write (Config.baseAddr + 0x008) (.bytes 8) v :: rest)) = .next t ∧
      t.busy = true ∧ t.done = false ∧ t.errCode = .none ∧ t.irq = false ∧ t.internals.op = decode v ∧
      t.internals.lcount = s.lcount ∧ t.internals.ksel = s.ksel ∧ t.busyErr = s.busyErr ∧ t.outputs = s.outputs ∧
      t.inputs = s.inputs ∧ t.cfgFields = s.cfgFields ∧ t.schedule = rest ∧ t.response = some .writeDone

/-- R32, R245: no step of a busy engine changes an input or CFG unless the reset input is asserted, and no engine step
ever does. -/
def Obligations.InputsChangeOnlyByIdleHostWrites : Prop :=
  ∀ s t : State, step s = .next t → s.resetNext = false → (s.busy = true ∨ s.engineNext = true) →
    t.inputs = s.inputs ∧ t.cfgFields = s.cfgFields

/-- R67, R71: RES, EXPBITS, WINK and OPCOUNT change only at a completion or a reset, so until then every read of them
returns what the last completion left. -/
def Obligations.OutputsChangeOnlyAtCompletionOrReset : Prop :=
  ∀ s t : State, step s = .next t → s.resetNext = false → ¬ (s.busy = true ∧ s.engineNext = true) →
    t.outputs = s.outputs

/-- R232: only the engine's completion or the reset input ends a command: any host access while BUSY, any write of CMD
among them, leaves it running with everything it latched. -/
def Obligations.HostAccessNeverEndsCommand : Prop :=
  ∀ s t : State, step s = .next t → s.busy = true → s.engineNext = false → s.resetNext = false →
    t.busy = true ∧ t.internals = s.internals ∧ (t.done = true → s.done = true) ∧ t.errCode = s.errCode

/-- R245: while BUSY a write of CMD, CFG, N0 or a limb of N, RR, A or B is dropped and sets BUSYERR; a write of STATUS is
performed; a write of a read-only target is ignored without BUSYERR; and no write affects the running command. Where the result
limbs are free values (out of contract, or with an operand write in flight), that the two runs of the last clause have
equal ones is the model's choice, log entry 7: a draw is fixed by the draw counter and the operands. -/
def Obligations.WritesWhileBusyAreDropped : Prop :=
  ∀ (s : State) (v : Word), s.busy = true →
    (∀ t ∈ [Target.cmd, .cfg, .n0], s.writeTarget t v = { s with busyErr := true }) ∧
    (∀ (bk : BankId) (j : Fin 16), bk ≠ .res → s.writeTarget (.limb bk j) v = { s with busyErr := true }) ∧
    s.writeTarget .status v = { s with done := s.done && !v.getLsbD 1, busyErr := s.busyErr && !v.getLsbD 2 } ∧
    (∀ t ∈ [Target.id, .expBits, .winK, .opCount], s.writeTarget t v = s) ∧
    (∀ j : Fin 16, s.writeTarget (.limb .res j) v = s) ∧
    (∀ (i : Instr) (t : Target), ∃ p q, exec i s = .next p ∧ exec i (s.writeTarget t v) = .next q ∧
      p.outputs = q.outputs ∧ p.errCode = q.errCode)

/-- R242: when the scheduled accesses all lie in the window, the engine is idle at some point within the schedule, or one
step after it; and where it is busy and no reset is scheduled, its command completes by then, with DONE = 1. That an
engine whose turn comes completes in that step, and that an empty schedule gives it its turn, is the model's form of
weak fairness, log entry 4, and the bound rests on it. -/
def Obligations.BusyEngineCompletes : Prop :=
  ∀ s : State, s.schedule.all Event.inWindow = true →
    (∃ (k : Nat) (t : State), k ≤ s.schedule.length + 1 ∧ Sys2Proof.core.run k s = .next t ∧ t.busy = false) ∧
    (s.busy = true → Event.reset ∉ s.schedule →
      ∃ (k : Nat) (t : State), 1 ≤ k ∧ k ≤ s.schedule.length + 1 ∧ Sys2Proof.core.run k s = .next t ∧
        t.busy = false ∧ t.done = true)

/-- R230, R231: the reset input in one step: every register takes its reset value, IRQ is 0, the engine is idle, every
limb is unwritten and unspecified, the internal fields are unspecified, and a running command leaves nothing. That the
unspecified limbs are Config.unwrittenLimb of the next epoch and the unspecified fields Config.anyInternals of the draw
counter is the model's choice, log entries 2 and 3. -/
def Obligations.ResetInputResets : Prop :=
  ∀ (s : State) (rest : List Event),
    ∃ t, step (s.withSchedule (.reset :: rest)) = .next t ∧
      t.statusWord = 0 ∧ t.cfgWord = 0 ∧ t.n0 = 0 ∧ t.expBitsWord = 0 ∧ t.winKWord = 0 ∧ t.opCountWord = 0 ∧
      t.readTarget .id = 0x4D4F4E5443494F53 ∧ t.readTarget .cmd = 0 ∧ t.irq = false ∧ t.busy = false ∧
      (∀ bk i, t.isWritten bk i = false) ∧
      (∀ bk i, i < 16 → t.limb bk i = Config.unwrittenLimb (s.epoch + 1) bk i) ∧
      t.internals = Config.anyInternals s.draws ∧ t.schedule = rest

/-- R21, R230, R231: what the host reads right after reset. That an unwritten limb reads Config.unwrittenLimb at epoch 0 is
the model's choice, log entry 2; the spec leaves the value open. That the engine's internal fields start at named
values is the model's choice, log entry 3, and no clause rests on it. -/
def Obligations.ResetValues : Prop :=
  State.reset.readTarget .id = 0x4D4F4E5443494F53 ∧ State.reset.readTarget .cmd = 0 ∧
  State.reset.readTarget .status = 0 ∧ State.reset.readTarget .cfg = 0 ∧ State.reset.readTarget .n0 = 0 ∧
  State.reset.readTarget .expBits = 0 ∧ State.reset.readTarget .winK = 0 ∧ State.reset.readTarget .opCount = 0 ∧
  State.reset.irq = false ∧ State.reset.phase = .idle ∧
  ∀ (bk : BankId) (i : Fin 16), State.reset.isWritten bk i = false ∧
    State.reset.readTarget (.limb bk i) = Config.unwrittenLimb 0 bk i

/-! ### The invariant -/

/-- The invariant holds after reset. -/
def Obligations.ResetMeetsInvariant : Prop := State.reset.Inv

/-- Every step from every state that meets the invariant leads to one that meets it. -/
def Obligations.StepKeepsInvariant : Prop := ∀ s t : State, s.Inv → step s = .next t → t.Inv

/-! ### The host's accesses (spec/10_state.md, spec/20_memory.md, spec/60_exceptions.md) -/

/-- R21, R30: the register map: every target stands at its own aligned offset of the window, and every other aligned
offset of the window is reserved. -/
def Obligations.RegisterMap : Prop :=
  (∀ (t : Target) (off : Nat), t.offset = some off → off % 8 = 0 ∧ off < 4096 ∧ targetAt off = t) ∧
  (∀ off, off < 4096 → off % 8 = 0 → (0x040 ≤ off ∧ off < 0x100 ∨ 0x380 ≤ off ↔ targetAt off = .reserved))

/-- R22: ID reads the ASCII bytes "MONTCIOS", "M" in bits 63:56, in every state. -/
def Obligations.IdReadsConstant : Prop :=
  ∀ s : State, s.readTarget .id = 0x4D4F4E5443494F53 ∧
    (List.range 8).map (fun k => (byteLane (s.readTarget .id) (7 - k)).toNat) = [77, 79, 78, 84, 67, 73, 79, 83]

/-- R24, R200: the layout of STATUS and what a write of it does. -/
def Obligations.StatusLayoutAndClear : Prop :=
  ∀ (s : State) (v : Word),
    s.statusWord.getLsbD 0 = s.busy ∧ s.statusWord.getLsbD 1 = s.done ∧ s.statusWord.getLsbD 2 = s.busyErr ∧
    s.statusWord.getLsbD 3 = false ∧ s.statusWord.extractLsb' 4 4 = s.errCode.toBits ∧
    s.statusWord.extractLsb' 8 56 = 0 ∧
    (s.writeTarget .status v).statusWord = s.statusWord &&& ~~~(v &&& 0x6) ∧
    (s.writeTarget .status v).outputs = s.outputs ∧ (s.writeTarget .status v).inputs = s.inputs ∧
    (s.writeTarget .status v).cfgFields = s.cfgFields ∧ (s.writeTarget .status v).internals = s.internals

/-- R25, R34: CFG written while idle reads back with its reserved bits 0; the unused bits of STATUS, EXPBITS and WINK read
0 in every state; and a reserved offset gets a bus error whatever the access. -/
def Obligations.ReservedBitsReadZero : Prop :=
  ∀ (s : State) (v : Word),
    (s.busy = false → (s.writeTarget .cfg v).readTarget .cfg = v &&& 0x10F1F) ∧
    s.readTarget .cfg &&& ~~~0x10F1F = 0 ∧ s.readTarget .status &&& ~~~0xF7 = 0 ∧
    s.readTarget .expBits &&& ~~~0x7FF = 0 ∧ s.readTarget .winK &&& ~~~0x7 = 0 ∧
    (∀ off size, (0x040 ≤ off ∧ off < 0x100) ∨ 0x380 ≤ off → off < 4096 → busError off size = true)

/-- R25, R26, R30, R33, R66: an idle write of a limb of N, RR, A or B reads back, marks the limb written, and leaves every
other target as it read before; likewise N0; and an idle write of CFG, whose read-back ReservedBitsReadZero gives,
leaves every other target as it read before. That an unwritten limb keeps its free value over a write elsewhere is the
model's reading, log entry 2, and the reserved target, to which the spec gives no value, counts as 0, log entry 9. -/
def Obligations.IdleWriteReadsBack : Prop :=
  ∀ (s : State) (v : Word), s.busy = false →
    (∀ (bk : BankId) (j : Fin 16), bk ≠ .res →
      (s.writeTarget (.limb bk j) v).readTarget (.limb bk j) = v ∧
      (s.writeTarget (.limb bk j) v).isWritten bk j = true ∧
      ∀ t, t ≠ .limb bk j → (s.writeTarget (.limb bk j) v).readTarget t = s.readTarget t) ∧
    (s.writeTarget .n0 v).readTarget .n0 = v ∧ (∀ t, t ≠ .n0 → (s.writeTarget .n0 v).readTarget t = s.readTarget t) ∧
    (∀ t, t ≠ .cfg → (s.writeTarget .cfg v).readTarget t = s.readTarget t)

/-- R33: a limb not written since reset reads as an unconstrained value that stays the same until a write or a reset, and
a written one as what was written; reading signals nothing. That two reads agree is the model's reading of R66, log
entry 2. -/
def Obligations.UnwrittenLimbReads : Prop :=
  ∀ (s : State) (bk : BankId) (i : Fin 16),
    (s.isWritten bk i = false → s.readTarget (.limb bk i) = Config.unwrittenLimb s.epoch bk i) ∧
    (s.isWritten bk i = true → ∃ l : Limb, (s.bank bk)[i.val]? = some l ∧ s.readTarget (.limb bk i) = l.value)

/-- R66, R67, R21: an aligned 8-byte read of an offset that is not reserved, whether the engine is busy or not, answers
the target's current value and changes nothing but the answer; a second one answers the same. -/
def Obligations.ReadsHaveNoSideEffect : Prop :=
  ∀ (s : State) (off : Nat) (rest : List Event), off < 4096 → off % 8 = 0 → targetAt off ≠ .reserved →
    let rd : Event := .read (Config.baseAddr + off) (.bytes 8)
    ∃ t u, step (s.withSchedule (rd :: rd :: rest)) = .next t ∧ step t = .next u ∧
      t = (s.withSchedule (rd :: rest)).respond (.readData (s.readTarget (targetAt off))) ∧
      u = (s.withSchedule rest).respond (.readData (s.readTarget (targetAt off)))

/-- R21: a write of a read-only target, an offset of RES among them, completes without an error response and without any
effect. -/
def Obligations.ReadOnlyWritesAreIgnored : Prop :=
  ∀ (s : State) (off : Nat) (v : Word) (rest : List Event),
    off ∈ [0x000, 0x028, 0x030, 0x038] ∨ (0x300 ≤ off ∧ off < 0x380 ∧ off % 8 = 0) →
    step (s.withSchedule (.write (Config.baseAddr + off) (.bytes 8) v :: rest))
      = .next ((s.withSchedule rest).respond .writeDone)

/-- R61, R62, R205: an access of another width, at a misaligned offset or at a reserved one gets a bus error: a write has
no effect, a read answers an unconstrained value and records the model fault of R212, and neither touches a register,
BUSYERR, the engine or the interrupt. That the fault is recorded at every such read, whether the host uses the data or
not, is the model's choice, log entry 6, and so is the draw counter that numbers the data, log entry 7. -/
def Obligations.BusErrorsHaveNoEffect : Prop :=
  ∀ (s : State) (off : Nat) (size : AccessSize) (v : Word) (rest : List Event), off < 4096 →
    size ≠ .bytes 8 ∨ off % 8 ≠ 0 ∨ (0x040 ≤ off ∧ off < 0x100) ∨ 0x380 ≤ off →
    step (s.withSchedule (.write (Config.baseAddr + off) size v :: rest))
      = .next ((s.withSchedule rest).respond .writeError) ∧
    step (s.withSchedule (.read (Config.baseAddr + off) size :: rest))
      = .next (s.withSchedule rest).respondReadError

/-- R60: the window is the block's one address space. That an access outside it stops the model is the model's choice,
log entry 10. -/
def Obligations.AccessOutsideWindowFaults : Prop :=
  ∀ (s : State) (addr : Nat) (size : AccessSize) (v : Word) (rest : List Event),
    addr < Config.baseAddr ∨ Config.baseAddr + 4096 ≤ addr →
    step (s.withSchedule (.read addr size :: rest)) = .fault .outsideWindow ∧
    step (s.withSchedule (.write addr size v :: rest)) = .fault .outsideWindow

/-- R63, R64: the 128 bytes of a bank are the little-endian byte string of its value, an unwritten limb counting with its
free value (log entry 2). -/
def Obligations.BankBytesAreLittleEndian : Prop :=
  ∀ (s : State) (bk : BankId),
    ((List.range 128).map fun a => (s.windowByte (bk.base + a)).toNat * 256 ^ a).sum = val (s.limbs bk 16)

/-- R210: the interrupt is DONE and IRQEN at every point; acknowledging DONE, clearing IRQEN, accepting a command and
reset each drive it to 0. -/
def Obligations.InterruptFollowsDone : Prop :=
  ∀ (s : State) (v : Word) (d : Decoded),
    (s.irq = true ↔ s.done = true ∧ s.irqEn = true) ∧
    (v.getLsbD 1 = true → (s.writeTarget .status v).irq = false) ∧
    (v.getLsbD 1 = false → (s.writeTarget .status v).irq = s.irq) ∧
    (s.busy = false → v.getLsbD 16 = false → (s.writeTarget .cfg v).irq = false) ∧
    (s.accept d).irq = false ∧ s.resetInput.irq = false ∧
    (∀ i, ∃ t, exec i s = .next t ∧ t.irq = s.irqEn)

/-- R88: the pseudo-instruction LDV run on an idle engine writes the limb vector of x to limbs 0..L-1 of the bank. That
an unwritten limb from L up keeps its free value over the writes is the model's reading, log entry 2. -/
def Obligations.LdvLoadsLimbVector : Prop :=
  ∀ (s : State) (bk : BankId) (l x : Nat) (rest : List Event), bk ≠ .res → l ≤ 16 → s.busy = false →
    ∃ t, Sys2Proof.core.run l (s.withSchedule (asmLdv bk l x ++ rest)) = .next t ∧
      t.limbs bk l = vecL l x ∧ (∀ j, j < l → t.isWritten bk j = true) ∧
      (∀ j, l ≤ j → t.limb bk j = s.limb bk j) ∧ t.schedule = rest ∧ t.outputs = s.outputs ∧ t.busy = false

/-- R246, R245, R72: a CMD write that lands on an idle engine is accepted with the operands that have taken effect, and is
marked exactly when an operand write issued before it is still in flight; such a write that lands while the engine is
busy is dropped and sets BUSYERR, and leaves the running command as it was. That R246 asks about the writes issued
before the CMD write is the model's reading, log entry 11. -/
def Obligations.OperandWritesInFlight : Prop :=
  (∀ (s : State) (earlier later : List PostedWrite) (v : Word) (rest : List Event), s.busy = false →
    s.fabric = earlier ++ { off := 0x008, size := .bytes 8, data := v } :: later →
    ∃ t, step (s.withSchedule (.land earlier.length :: rest)) = .next t ∧ t.busy = true ∧ t.internals.op = decode v ∧
      t.inFlight = earlier.any PostedWrite.isOperand ∧ t.fabric = earlier ++ later ∧ t.inputs = s.inputs ∧
      t.cfgFields = s.cfgFields ∧ t.outputs = s.outputs) ∧
  (∀ (s : State) (i : Nat) (w : PostedWrite) (rest : List Event), s.busy = true → s.fabric[i]? = some w →
    w.isOperand = true →
    ∃ t, step (s.withSchedule (.land i :: rest)) = .next t ∧ t.busy = true ∧ t.busyErr = true ∧ t.inputs = s.inputs ∧
      t.cfgFields = s.cfgFields ∧ t.outputs = s.outputs ∧ t.internals = s.internals ∧ t.inFlight = s.inFlight ∧
      t.fabric = s.fabric.eraseIdx i)
end

