-- ==== Sys2Proof/Laws/Arithmetic.lean ====
section
/-! SUPPORT. Values and lengths of limb vectors, and the lengths that the Montgomery core keeps. -/

namespace Sys2Proof.Machine

@[simp] theorem val_nil : val [] = 0 := rfl

@[simp] theorem val_cons (w : Word) (ws : Limbs) : val (w :: ws) = w.toNat + 2 ^ 64 * val ws := rfl

theorem val_append (xs ys : Limbs) : val (xs ++ ys) = val xs + radix xs.length * val ys := by
  induction xs with
  | nil => simp [radix]
  | cons x xs ih =>
    simp only [List.cons_append, val_cons, ih, radix, List.length_cons]
    rw [Nat.mul_add 64, pow_add]
    ring

/-- A limb vector of length L has a value below R. -/
theorem val_lt_radix (xs : Limbs) : val xs < radix xs.length := by
  induction xs with
  | nil => simp [radix]
  | cons x xs ih =>
    have hx := x.isLt
    simp only [val_cons, radix, List.length_cons] at ih ⊢
    rw [Nat.mul_add 64, pow_add]
    generalize (2 : ℕ) ^ (64 * xs.length) = r at ih ⊢
    omega

/-- Limb vectors of one length are equal when their values are. -/
theorem val_injective : ∀ {xs ys : Limbs}, xs.length = ys.length → val xs = val ys → xs = ys
  | [], [], _, _ => rfl
  | x :: xs, y :: ys, hl, hv => by
    have hx := x.isLt
    have hy := y.isLt
    simp only [val_cons] at hv
    have h1 : x = y := BitVec.eq_of_toNat_eq (by omega)
    have h2 : val xs = val ys := by subst h1; omega
    rw [h1, val_injective (by simpa using hl) h2]

@[simp] theorem vecL_length (l x : Nat) : (vecL l x).length = l := by
  induction l generalizing x with
  | zero => rfl
  | succ l ih => simp [vecL, ih]

/-- The value of vecL(x) is x mod R. -/
theorem val_vecL (l x : Nat) : val (vecL l x) = x % radix l := by
  induction l generalizing x with
  | zero => simp [vecL, radix, Nat.mod_one]
  | succ l ih =>
    simp only [vecL, val_cons, ih, BitVec.toNat_ofNat, radix]
    rw [Nat.mul_add 64, pow_add, Nat.mul_comm (2 ^ (64 * l)), show 2 ^ (64 * 1) = 2 ^ 64 from rfl, Nat.mod_mul]

@[simp] theorem macRow_length (ts : Limbs) (x : Word) (ys : Limbs) (c : Word) :
    (macRow ts x ys c).1.length = min ts.length ys.length := by
  induction ts generalizing ys c with
  | nil => simp [macRow]
  | cons t ts ih => cases ys <;> simp [macRow, ih]

@[simp] theorem addMul_length (x : Word) (ys : Limbs) (acc : Acc) :
    (acc.addMul x ys).limbs.length = min acc.limbs.length ys.length := by
  simp [Acc.addMul]

/-- A row keeps the width of the accumulator. -/
theorem ciosRow_length (n0 : Word) {n b : Limbs} {acc : Acc} (ai : Word) (hb : b.length = n.length) (hn : 0 < n.length)
    (ha : acc.limbs.length = n.length) : (ciosRow n0 n b acc ai).limbs.length = n.length := by
  simp [ciosRow, Acc.shift, hb, ha]
  omega

@[simp] theorem subBorrow_length (xs ys : Limbs) (c : Bool) : (subBorrow xs ys c).length = min xs.length ys.length := by
  induction xs generalizing ys c with
  | nil => simp [subBorrow]
  | cons x xs ih => cases ys <;> simp [subBorrow, ih]

/-- A Montgomery product has the width of the modulus. -/
theorem mm_length (n0 : Word) {n b : Limbs} (a : Limbs) (hb : b.length = n.length) (hn : 0 < n.length) :
    (mm n0 n a b).length = n.length := by
  have key : ∀ (a : Limbs) (acc : Acc), acc.limbs.length = n.length →
      (a.foldl (ciosRow n0 n b) acc).limbs.length = n.length := by
    intro a
    induction a with
    | nil => intro acc h; simpa using h
    | cons ai a ih => intro acc h; exact ih _ (ciosRow_length n0 ai hb hn h)
  have h := key a (Acc.zero n.length) (by simp [Acc.zero])
  unfold mm condSub
  split <;> simp [h]

end Sys2Proof.Machine
end

