-- ==== Sys2Proof/Laws/State.lean ====
section
/-! SUPPORT. What each record update leaves as it was, one rewrite rule per field: no later proof unfolds an update. -/

namespace Sys2Proof.Machine

/-! ### Completion -/

@[simp] theorem finish_fields (c : ErrorCode) (s : State) :
    (s.finish c).phase = .idle ∧ (s.finish c).done = true ∧ (s.finish c).errCode = c ∧
    (s.finish c).internals = Config.anyInternals s.draws ∧ (s.finish c).draws = s.draws + 1 ∧
    (s.finish c).busyErr = s.busyErr ∧ (s.finish c).lcount = s.lcount ∧ (s.finish c).ksel = s.ksel ∧
    (s.finish c).irqEn = s.irqEn ∧ (s.finish c).n0 = s.n0 ∧ (s.finish c).expBits = s.expBits ∧
    (s.finish c).winK = s.winK ∧ (s.finish c).sqr = s.sqr ∧ (s.finish c).mul = s.mul ∧
    (s.finish c).bankN = s.bankN ∧ (s.finish c).bankRR = s.bankRR ∧ (s.finish c).bankA = s.bankA ∧
    (s.finish c).bankB = s.bankB ∧ (s.finish c).bankRes = s.bankRes ∧ (s.finish c).schedule = s.schedule ∧
    (s.finish c).response = s.response ∧ (s.finish c).unwrittenOperand = s.unwrittenOperand ∧
    (s.finish c).busErrorRead = s.busErrorRead ∧ (s.finish c).epoch = s.epoch ∧
    (s.finish c).fabric = s.fabric ∧ (s.finish c).inFlight = false := by
  and_intros <;> rfl

@[simp] theorem failWith_eq (c : ErrorCode) (s : State) : s.failWith c = s.finish c := rfl

@[simp] theorem succeed_eq (s : State) : s.succeed = s.finish .none := rfl

/-! ### Acceptance -/

@[simp] theorem accept_fields (d : Decoded) (s : State) :
    (s.accept d).phase = .busy ∧ (s.accept d).done = false ∧ (s.accept d).errCode = .none ∧
    (s.accept d).internals.op = d ∧ (s.accept d).internals.lcount = s.lcount ∧ (s.accept d).internals.ksel = s.ksel ∧
    (s.accept d).busyErr = s.busyErr ∧ (s.accept d).lcount = s.lcount ∧ (s.accept d).ksel = s.ksel ∧
    (s.accept d).irqEn = s.irqEn ∧ (s.accept d).n0 = s.n0 ∧ (s.accept d).expBits = s.expBits ∧
    (s.accept d).winK = s.winK ∧ (s.accept d).sqr = s.sqr ∧ (s.accept d).mul = s.mul ∧
    (s.accept d).bankN = s.bankN ∧ (s.accept d).bankRR = s.bankRR ∧ (s.accept d).bankA = s.bankA ∧
    (s.accept d).bankB = s.bankB ∧ (s.accept d).bankRes = s.bankRes ∧ (s.accept d).schedule = s.schedule ∧
    (s.accept d).response = s.response ∧ (s.accept d).unwrittenOperand = s.unwrittenOperand ∧
    (s.accept d).busErrorRead = s.busErrorRead ∧ (s.accept d).draws = s.draws ∧ (s.accept d).epoch = s.epoch ∧
    (s.accept d).fabric = s.fabric ∧ (s.accept d).inFlight = s.fabric.any PostedWrite.isOperand := by
  and_intros <;> rfl

/-! ### Outputs of a command -/

@[simp] theorem writeRes_fields (r : Limbs) (s : State) :
    (s.writeRes r).bankRes = Bank.ofResult r ∧ (s.writeRes r).phase = s.phase ∧ (s.writeRes r).done = s.done ∧
    (s.writeRes r).errCode = s.errCode ∧ (s.writeRes r).internals = s.internals ∧ (s.writeRes r).draws = s.draws ∧
    (s.writeRes r).busyErr = s.busyErr ∧ (s.writeRes r).lcount = s.lcount ∧ (s.writeRes r).ksel = s.ksel ∧
    (s.writeRes r).irqEn = s.irqEn ∧ (s.writeRes r).n0 = s.n0 ∧ (s.writeRes r).expBits = s.expBits ∧
    (s.writeRes r).winK = s.winK ∧ (s.writeRes r).sqr = s.sqr ∧ (s.writeRes r).mul = s.mul ∧
    (s.writeRes r).bankN = s.bankN ∧ (s.writeRes r).bankRR = s.bankRR ∧ (s.writeRes r).bankA = s.bankA ∧
    (s.writeRes r).bankB = s.bankB ∧ (s.writeRes r).schedule = s.schedule ∧ (s.writeRes r).response = s.response ∧
    (s.writeRes r).unwrittenOperand = s.unwrittenOperand ∧ (s.writeRes r).busErrorRead = s.busErrorRead ∧
    (s.writeRes r).epoch = s.epoch ∧
    (s.writeRes r).fabric = s.fabric ∧ (s.writeRes r).inFlight = s.inFlight := by
  unfold State.writeRes
  and_intros <;> rfl

@[simp] theorem writeScan_fields (e k : Nat) (s : State) :
    (s.writeScan e k).expBits = BitVec.ofNat 11 e ∧ (s.writeScan e k).winK = BitVec.ofNat 3 k ∧
    (s.writeScan e k).phase = s.phase ∧ (s.writeScan e k).done = s.done ∧ (s.writeScan e k).errCode = s.errCode ∧
    (s.writeScan e k).internals = s.internals ∧ (s.writeScan e k).draws = s.draws ∧
    (s.writeScan e k).busyErr = s.busyErr ∧ (s.writeScan e k).lcount = s.lcount ∧ (s.writeScan e k).ksel = s.ksel ∧
    (s.writeScan e k).irqEn = s.irqEn ∧ (s.writeScan e k).n0 = s.n0 ∧ (s.writeScan e k).sqr = s.sqr ∧
    (s.writeScan e k).mul = s.mul ∧ (s.writeScan e k).bankN = s.bankN ∧ (s.writeScan e k).bankRR = s.bankRR ∧
    (s.writeScan e k).bankA = s.bankA ∧ (s.writeScan e k).bankB = s.bankB ∧ (s.writeScan e k).bankRes = s.bankRes ∧
    (s.writeScan e k).schedule = s.schedule ∧ (s.writeScan e k).response = s.response ∧
    (s.writeScan e k).unwrittenOperand = s.unwrittenOperand ∧ (s.writeScan e k).busErrorRead = s.busErrorRead ∧
    (s.writeScan e k).epoch = s.epoch ∧
    (s.writeScan e k).fabric = s.fabric ∧ (s.writeScan e k).inFlight = s.inFlight := by
  and_intros <;> rfl

@[simp] theorem writeOpCount_fields (q m : Nat) (s : State) :
    (s.writeOpCount q m).sqr = BitVec.ofNat 32 q ∧ (s.writeOpCount q m).mul = BitVec.ofNat 32 m ∧
    (s.writeOpCount q m).phase = s.phase ∧ (s.writeOpCount q m).done = s.done ∧
    (s.writeOpCount q m).errCode = s.errCode ∧ (s.writeOpCount q m).internals = s.internals ∧
    (s.writeOpCount q m).draws = s.draws ∧ (s.writeOpCount q m).busyErr = s.busyErr ∧
    (s.writeOpCount q m).lcount = s.lcount ∧ (s.writeOpCount q m).ksel = s.ksel ∧
    (s.writeOpCount q m).irqEn = s.irqEn ∧ (s.writeOpCount q m).n0 = s.n0 ∧
    (s.writeOpCount q m).expBits = s.expBits ∧ (s.writeOpCount q m).winK = s.winK ∧
    (s.writeOpCount q m).bankN = s.bankN ∧ (s.writeOpCount q m).bankRR = s.bankRR ∧
    (s.writeOpCount q m).bankA = s.bankA ∧ (s.writeOpCount q m).bankB = s.bankB ∧
    (s.writeOpCount q m).bankRes = s.bankRes ∧ (s.writeOpCount q m).schedule = s.schedule ∧
    (s.writeOpCount q m).response = s.response ∧ (s.writeOpCount q m).unwrittenOperand = s.unwrittenOperand ∧
    (s.writeOpCount q m).busErrorRead = s.busErrorRead ∧ (s.writeOpCount q m).epoch = s.epoch ∧
    (s.writeOpCount q m).fabric = s.fabric ∧ (s.writeOpCount q m).inFlight = s.inFlight := by
  and_intros <;> rfl

@[simp] theorem noteReads_fields (bk : BankId) (l : Nat) (s : State) :
    (s.noteReads bk l).unwrittenOperand = (s.unwrittenOperand || !(List.range l).all (s.isWritten bk)) ∧
    (s.noteReads bk l).phase = s.phase ∧ (s.noteReads bk l).done = s.done ∧
    (s.noteReads bk l).errCode = s.errCode ∧ (s.noteReads bk l).internals = s.internals ∧
    (s.noteReads bk l).draws = s.draws ∧ (s.noteReads bk l).busyErr = s.busyErr ∧
    (s.noteReads bk l).lcount = s.lcount ∧ (s.noteReads bk l).ksel = s.ksel ∧ (s.noteReads bk l).irqEn = s.irqEn ∧
    (s.noteReads bk l).n0 = s.n0 ∧ (s.noteReads bk l).expBits = s.expBits ∧ (s.noteReads bk l).winK = s.winK ∧
    (s.noteReads bk l).sqr = s.sqr ∧ (s.noteReads bk l).mul = s.mul ∧ (s.noteReads bk l).bankN = s.bankN ∧
    (s.noteReads bk l).bankRR = s.bankRR ∧ (s.noteReads bk l).bankA = s.bankA ∧
    (s.noteReads bk l).bankB = s.bankB ∧ (s.noteReads bk l).bankRes = s.bankRes ∧
    (s.noteReads bk l).schedule = s.schedule ∧ (s.noteReads bk l).response = s.response ∧
    (s.noteReads bk l).busErrorRead = s.busErrorRead ∧ (s.noteReads bk l).epoch = s.epoch ∧
    (s.noteReads bk l).fabric = s.fabric ∧ (s.noteReads bk l).inFlight = s.inFlight := by
  and_intros <;> rfl

/-! ### Single fields -/

@[simp] theorem withSchedule_fields (events : List Event) (s : State) :
    (s.withSchedule events).schedule = events ∧ (s.withSchedule events).phase = s.phase ∧
    (s.withSchedule events).done = s.done ∧ (s.withSchedule events).busyErr = s.busyErr ∧
    (s.withSchedule events).errCode = s.errCode ∧ (s.withSchedule events).lcount = s.lcount ∧
    (s.withSchedule events).ksel = s.ksel ∧ (s.withSchedule events).irqEn = s.irqEn ∧
    (s.withSchedule events).n0 = s.n0 ∧ (s.withSchedule events).expBits = s.expBits ∧
    (s.withSchedule events).winK = s.winK ∧ (s.withSchedule events).sqr = s.sqr ∧
    (s.withSchedule events).mul = s.mul ∧ (s.withSchedule events).bankN = s.bankN ∧
    (s.withSchedule events).bankRR = s.bankRR ∧ (s.withSchedule events).bankA = s.bankA ∧
    (s.withSchedule events).bankB = s.bankB ∧ (s.withSchedule events).bankRes = s.bankRes ∧
    (s.withSchedule events).internals = s.internals ∧ (s.withSchedule events).response = s.response ∧
    (s.withSchedule events).unwrittenOperand = s.unwrittenOperand ∧
    (s.withSchedule events).busErrorRead = s.busErrorRead ∧ (s.withSchedule events).draws = s.draws ∧
    (s.withSchedule events).epoch = s.epoch ∧
    (s.withSchedule events).fabric = s.fabric ∧ (s.withSchedule events).inFlight = s.inFlight := by
  and_intros <;> rfl

@[simp] theorem withFabric_fields (writes : List PostedWrite) (s : State) :
    (s.withFabric writes).schedule = s.schedule ∧ (s.withFabric writes).phase = s.phase ∧
    (s.withFabric writes).done = s.done ∧ (s.withFabric writes).busyErr = s.busyErr ∧
    (s.withFabric writes).errCode = s.errCode ∧ (s.withFabric writes).lcount = s.lcount ∧
    (s.withFabric writes).ksel = s.ksel ∧ (s.withFabric writes).irqEn = s.irqEn ∧
    (s.withFabric writes).n0 = s.n0 ∧ (s.withFabric writes).expBits = s.expBits ∧
    (s.withFabric writes).winK = s.winK ∧ (s.withFabric writes).sqr = s.sqr ∧
    (s.withFabric writes).mul = s.mul ∧ (s.withFabric writes).bankN = s.bankN ∧
    (s.withFabric writes).bankRR = s.bankRR ∧ (s.withFabric writes).bankA = s.bankA ∧
    (s.withFabric writes).bankB = s.bankB ∧ (s.withFabric writes).bankRes = s.bankRes ∧
    (s.withFabric writes).internals = s.internals ∧ (s.withFabric writes).response = s.response ∧
    (s.withFabric writes).unwrittenOperand = s.unwrittenOperand ∧
    (s.withFabric writes).busErrorRead = s.busErrorRead ∧ (s.withFabric writes).draws = s.draws ∧
    (s.withFabric writes).epoch = s.epoch ∧
    (s.withFabric writes).fabric = writes ∧ (s.withFabric writes).inFlight = s.inFlight := by
  and_intros <;> rfl

@[simp] theorem respond_fields (r : Response) (s : State) :
    (s.respond r).response = some r ∧ (s.respond r).phase = s.phase ∧ (s.respond r).done = s.done ∧
    (s.respond r).busyErr = s.busyErr ∧ (s.respond r).errCode = s.errCode ∧ (s.respond r).lcount = s.lcount ∧
    (s.respond r).ksel = s.ksel ∧ (s.respond r).irqEn = s.irqEn ∧ (s.respond r).n0 = s.n0 ∧
    (s.respond r).expBits = s.expBits ∧ (s.respond r).winK = s.winK ∧ (s.respond r).sqr = s.sqr ∧
    (s.respond r).mul = s.mul ∧ (s.respond r).bankN = s.bankN ∧ (s.respond r).bankRR = s.bankRR ∧
    (s.respond r).bankA = s.bankA ∧ (s.respond r).bankB = s.bankB ∧ (s.respond r).bankRes = s.bankRes ∧
    (s.respond r).internals = s.internals ∧ (s.respond r).schedule = s.schedule ∧
    (s.respond r).unwrittenOperand = s.unwrittenOperand ∧ (s.respond r).busErrorRead = s.busErrorRead ∧
    (s.respond r).draws = s.draws ∧ (s.respond r).epoch = s.epoch ∧
    (s.respond r).fabric = s.fabric ∧ (s.respond r).inFlight = s.inFlight := by
  and_intros <;> rfl

@[simp] theorem respondReadError_fields (s : State) :
    s.respondReadError.response = some (.readError (Config.busErrorData s.draws)) ∧
    s.respondReadError.busErrorRead = true ∧ s.respondReadError.draws = s.draws + 1 ∧
    s.respondReadError.phase = s.phase ∧ s.respondReadError.done = s.done ∧
    s.respondReadError.busyErr = s.busyErr ∧ s.respondReadError.errCode = s.errCode ∧
    s.respondReadError.lcount = s.lcount ∧ s.respondReadError.ksel = s.ksel ∧
    s.respondReadError.irqEn = s.irqEn ∧ s.respondReadError.n0 = s.n0 ∧
    s.respondReadError.expBits = s.expBits ∧ s.respondReadError.winK = s.winK ∧
    s.respondReadError.sqr = s.sqr ∧ s.respondReadError.mul = s.mul ∧ s.respondReadError.bankN = s.bankN ∧
    s.respondReadError.bankRR = s.bankRR ∧ s.respondReadError.bankA = s.bankA ∧
    s.respondReadError.bankB = s.bankB ∧ s.respondReadError.bankRes = s.bankRes ∧
    s.respondReadError.internals = s.internals ∧ s.respondReadError.schedule = s.schedule ∧
    s.respondReadError.unwrittenOperand = s.unwrittenOperand ∧ s.respondReadError.epoch = s.epoch ∧
    s.respondReadError.fabric = s.fabric ∧ s.respondReadError.inFlight = s.inFlight := by
  and_intros <;> rfl

@[simp] theorem writeN0_fields (v : Word) (s : State) :
    (s.writeN0 v).n0 = v ∧ (s.writeN0 v).phase = s.phase ∧ (s.writeN0 v).done = s.done ∧
    (s.writeN0 v).busyErr = s.busyErr ∧ (s.writeN0 v).errCode = s.errCode ∧ (s.writeN0 v).lcount = s.lcount ∧
    (s.writeN0 v).ksel = s.ksel ∧ (s.writeN0 v).irqEn = s.irqEn ∧ (s.writeN0 v).expBits = s.expBits ∧
    (s.writeN0 v).winK = s.winK ∧ (s.writeN0 v).sqr = s.sqr ∧ (s.writeN0 v).mul = s.mul ∧
    (s.writeN0 v).bankN = s.bankN ∧ (s.writeN0 v).bankRR = s.bankRR ∧ (s.writeN0 v).bankA = s.bankA ∧
    (s.writeN0 v).bankB = s.bankB ∧ (s.writeN0 v).bankRes = s.bankRes ∧ (s.writeN0 v).internals = s.internals ∧
    (s.writeN0 v).schedule = s.schedule ∧ (s.writeN0 v).response = s.response ∧
    (s.writeN0 v).unwrittenOperand = s.unwrittenOperand ∧ (s.writeN0 v).busErrorRead = s.busErrorRead ∧
    (s.writeN0 v).draws = s.draws ∧ (s.writeN0 v).epoch = s.epoch ∧
    (s.writeN0 v).fabric = s.fabric ∧ (s.writeN0 v).inFlight = s.inFlight := by
  and_intros <;> rfl

/-! ### Host writes -/

@[simp] theorem dropWrite_fields (s : State) :
    s.dropWrite.busyErr = true ∧ s.dropWrite.phase = s.phase ∧ s.dropWrite.done = s.done ∧
    s.dropWrite.errCode = s.errCode ∧ s.dropWrite.internals = s.internals ∧ s.dropWrite.draws = s.draws ∧
    s.dropWrite.lcount = s.lcount ∧ s.dropWrite.ksel = s.ksel ∧ s.dropWrite.irqEn = s.irqEn ∧
    s.dropWrite.n0 = s.n0 ∧ s.dropWrite.expBits = s.expBits ∧ s.dropWrite.winK = s.winK ∧ s.dropWrite.sqr = s.sqr ∧
    s.dropWrite.mul = s.mul ∧ s.dropWrite.bankN = s.bankN ∧ s.dropWrite.bankRR = s.bankRR ∧
    s.dropWrite.bankA = s.bankA ∧ s.dropWrite.bankB = s.bankB ∧ s.dropWrite.bankRes = s.bankRes ∧
    s.dropWrite.schedule = s.schedule ∧ s.dropWrite.response = s.response ∧
    s.dropWrite.unwrittenOperand = s.unwrittenOperand ∧ s.dropWrite.busErrorRead = s.busErrorRead ∧
    s.dropWrite.epoch = s.epoch ∧
    s.dropWrite.fabric = s.fabric ∧ s.dropWrite.inFlight = s.inFlight := by
  and_intros <;> rfl

@[simp] theorem clearStatus_fields (v : Word) (s : State) :
    (s.clearStatus v).done = (s.done && !v.getLsbD 1) ∧ (s.clearStatus v).busyErr = (s.busyErr && !v.getLsbD 2) ∧
    (s.clearStatus v).phase = s.phase ∧ (s.clearStatus v).errCode = s.errCode ∧
    (s.clearStatus v).internals = s.internals ∧ (s.clearStatus v).draws = s.draws ∧
    (s.clearStatus v).lcount = s.lcount ∧ (s.clearStatus v).ksel = s.ksel ∧ (s.clearStatus v).irqEn = s.irqEn ∧
    (s.clearStatus v).n0 = s.n0 ∧ (s.clearStatus v).expBits = s.expBits ∧ (s.clearStatus v).winK = s.winK ∧
    (s.clearStatus v).sqr = s.sqr ∧ (s.clearStatus v).mul = s.mul ∧ (s.clearStatus v).bankN = s.bankN ∧
    (s.clearStatus v).bankRR = s.bankRR ∧ (s.clearStatus v).bankA = s.bankA ∧ (s.clearStatus v).bankB = s.bankB ∧
    (s.clearStatus v).bankRes = s.bankRes ∧ (s.clearStatus v).schedule = s.schedule ∧
    (s.clearStatus v).response = s.response ∧ (s.clearStatus v).unwrittenOperand = s.unwrittenOperand ∧
    (s.clearStatus v).busErrorRead = s.busErrorRead ∧ (s.clearStatus v).epoch = s.epoch ∧
    (s.clearStatus v).fabric = s.fabric ∧ (s.clearStatus v).inFlight = s.inFlight := by
  and_intros <;> rfl

@[simp] theorem writeCfg_fields (v : Word) (s : State) :
    (s.writeCfg v).lcount = v.extractLsb' 0 5 ∧ (s.writeCfg v).ksel = v.extractLsb' 8 4 ∧
    (s.writeCfg v).irqEn = v.getLsbD 16 ∧ (s.writeCfg v).phase = s.phase ∧ (s.writeCfg v).done = s.done ∧
    (s.writeCfg v).busyErr = s.busyErr ∧ (s.writeCfg v).errCode = s.errCode ∧
    (s.writeCfg v).internals = s.internals ∧ (s.writeCfg v).draws = s.draws ∧ (s.writeCfg v).n0 = s.n0 ∧
    (s.writeCfg v).expBits = s.expBits ∧ (s.writeCfg v).winK = s.winK ∧ (s.writeCfg v).sqr = s.sqr ∧
    (s.writeCfg v).mul = s.mul ∧ (s.writeCfg v).bankN = s.bankN ∧ (s.writeCfg v).bankRR = s.bankRR ∧
    (s.writeCfg v).bankA = s.bankA ∧ (s.writeCfg v).bankB = s.bankB ∧ (s.writeCfg v).bankRes = s.bankRes ∧
    (s.writeCfg v).schedule = s.schedule ∧ (s.writeCfg v).response = s.response ∧
    (s.writeCfg v).unwrittenOperand = s.unwrittenOperand ∧ (s.writeCfg v).busErrorRead = s.busErrorRead ∧
    (s.writeCfg v).epoch = s.epoch ∧
    (s.writeCfg v).fabric = s.fabric ∧ (s.writeCfg v).inFlight = s.inFlight := by
  and_intros <;> rfl

/-- Replacing a bank leaves everything but the banks as it was. -/
@[simp] theorem setBank_fields (s : State) (bk : BankId) (v : Bank) :
    (s.setBank bk v).phase = s.phase ∧ (s.setBank bk v).done = s.done ∧ (s.setBank bk v).busyErr = s.busyErr ∧
    (s.setBank bk v).errCode = s.errCode ∧ (s.setBank bk v).internals = s.internals ∧
    (s.setBank bk v).draws = s.draws ∧ (s.setBank bk v).lcount = s.lcount ∧ (s.setBank bk v).ksel = s.ksel ∧
    (s.setBank bk v).irqEn = s.irqEn ∧ (s.setBank bk v).n0 = s.n0 ∧ (s.setBank bk v).expBits = s.expBits ∧
    (s.setBank bk v).winK = s.winK ∧ (s.setBank bk v).sqr = s.sqr ∧ (s.setBank bk v).mul = s.mul ∧
    (s.setBank bk v).schedule = s.schedule ∧ (s.setBank bk v).response = s.response ∧
    (s.setBank bk v).unwrittenOperand = s.unwrittenOperand ∧ (s.setBank bk v).busErrorRead = s.busErrorRead ∧
    (s.setBank bk v).epoch = s.epoch ∧
    (s.setBank bk v).fabric = s.fabric ∧ (s.setBank bk v).inFlight = s.inFlight := by
  cases bk <;> and_intros <;> rfl

/-! ### The reset input -/

@[simp] theorem resetInput_fields (s : State) :
    s.resetInput.phase = .idle ∧ s.resetInput.done = false ∧ s.resetInput.busyErr = false ∧
    s.resetInput.errCode = .none ∧ s.resetInput.lcount = 0 ∧ s.resetInput.ksel = 0 ∧ s.resetInput.irqEn = false ∧
    s.resetInput.n0 = 0 ∧ s.resetInput.expBits = 0 ∧ s.resetInput.winK = 0 ∧ s.resetInput.sqr = 0 ∧
    s.resetInput.mul = 0 ∧ s.resetInput.bankN = Bank.reset ∧ s.resetInput.bankRR = Bank.reset ∧
    s.resetInput.bankA = Bank.reset ∧ s.resetInput.bankB = Bank.reset ∧ s.resetInput.bankRes = Bank.reset ∧
    s.resetInput.internals = Config.anyInternals s.draws ∧ s.resetInput.schedule = s.schedule ∧
    s.resetInput.response = none ∧ s.resetInput.unwrittenOperand = s.unwrittenOperand ∧
    s.resetInput.busErrorRead = s.busErrorRead ∧ s.resetInput.draws = s.draws + 1 ∧
    s.resetInput.epoch = s.epoch + 1 ∧ s.resetInput.fabric = s.fabric ∧ s.resetInput.inFlight = false := by
  and_intros <;> rfl

end Sys2Proof.Machine
end

