-- ==== Sys2Proof/Laws/Ops.lean ====
section
/-! SUPPORT. What the bank operations read and write: read after write, other limbs unchanged, and that reads of a bank depend on that bank alone. -/

namespace Sys2Proof.Machine

theorem busy_eq_true (s : State) : s.busy = true ↔ s.phase = .busy := by simp [State.busy]

theorem busy_eq_false (s : State) : s.busy = false ↔ s.phase = .idle := by
  cases h : s.phase <;> simp [State.busy, h]

/-! STATUS.BUSY after each update: completion and reset clear it, acceptance sets it, nothing else changes it. -/

@[simp] theorem busy_finish (c : ErrorCode) (s : State) : (s.finish c).busy = false := rfl

@[simp] theorem busy_resetInput (s : State) : s.resetInput.busy = false := rfl

@[simp] theorem busy_accept (d : Decoded) (s : State) : (s.accept d).busy = true := rfl

@[simp] theorem busy_dropWrite (s : State) : s.dropWrite.busy = s.busy := rfl

@[simp] theorem busy_clearStatus (v : Word) (s : State) : (s.clearStatus v).busy = s.busy := rfl

@[simp] theorem busy_writeCfg (v : Word) (s : State) : (s.writeCfg v).busy = s.busy := rfl

@[simp] theorem busy_writeN0 (v : Word) (s : State) : (s.writeN0 v).busy = s.busy := rfl

@[simp] theorem busy_respond (r : Response) (s : State) : (s.respond r).busy = s.busy := rfl

@[simp] theorem busy_respondReadError (s : State) : s.respondReadError.busy = s.busy := rfl

@[simp] theorem busy_withSchedule (evs : List Event) (s : State) : (s.withSchedule evs).busy = s.busy := rfl

@[simp] theorem busy_withFabric (ws : List PostedWrite) (s : State) : (s.withFabric ws).busy = s.busy := rfl

@[simp] theorem busy_setLimb (s : State) (bk : BankId) (i : Nat) (v : Word) : (s.setLimb bk i v).busy = s.busy := by
  simp [State.busy, State.setLimb]

/-- Only the latest schedule counts. -/
@[simp] theorem withSchedule_withSchedule (s : State) (xs ys : List Event) :
    (s.withSchedule xs).withSchedule ys = s.withSchedule ys := rfl

/-- Putting a state's own schedule back changes nothing. -/
@[simp] theorem withSchedule_self (s : State) : s.withSchedule s.schedule = s := rfl

/-- Putting a state's own fabric back changes nothing. -/
@[simp] theorem withFabric_self (s : State) : s.withFabric s.fabric = s := rfl

/-- The five names of a bank give the five fields. -/
@[simp] theorem bank_names (s : State) :
    s.bank .n = s.bankN ∧ s.bank .rr = s.bankRR ∧ s.bank .a = s.bankA ∧ s.bank .b = s.bankB ∧
    s.bank .res = s.bankRes := ⟨rfl, rfl, rfl, rfl, rfl⟩

/-- A limb depends on its bank and the epoch alone. -/
theorem limb_congr {s t : State} {bk : BankId} (hb : t.bank bk = s.bank bk) (he : t.epoch = s.epoch) (i : Nat) :
    t.limb bk i = s.limb bk i := by simp [State.limb, hb, he]

/-- The first limbs of a bank depend on the bank and the epoch alone. -/
theorem limbs_congr {s t : State} {bk : BankId} (hb : t.bank bk = s.bank bk) (he : t.epoch = s.epoch) (l : Nat) :
    t.limbs bk l = s.limbs bk l :=
  List.map_congr_left fun i _ => limb_congr hb he i

/-- A written mark depends on its bank alone. -/
theorem isWritten_congr {s t : State} {bk : BankId} (hb : t.bank bk = s.bank bk) (i : Nat) :
    t.isWritten bk i = s.isWritten bk i := by simp [State.isWritten, hb]

@[simp] theorem limbs_length (s : State) (bk : BankId) (l : Nat) : (s.limbs bk l).length = l := by
  simp [State.limbs]

/-- Limb i of the first l limbs of a bank. -/
theorem limbAt_limbs (s : State) (bk : BankId) {l i : Nat} (h : i < l) : limbAt (s.limbs bk l) i = s.limb bk i := by
  simp [limbAt, State.limbs, List.getD_eq_getElem?_getD, h]

@[simp] theorem bank_setBank_same (s : State) (bk : BankId) (v : Bank) : (s.setBank bk v).bank bk = v := by
  cases bk <;> rfl

theorem bank_setBank_other (s : State) {bk ck : BankId} (h : ck ≠ bk) (v : Bank) :
    (s.setBank bk v).bank ck = s.bank ck := by
  cases bk <;> cases ck <;> first | rfl | exact absurd rfl h

/-- Read after write, at the same limb. -/
theorem limb_setLimb_same (s : State) (bk : BankId) {i : Nat} (h : i < 16) (v : Word) :
    (s.setLimb bk i v).limb bk i = v := by
  simp [State.limb, State.setLimb, h]

/-- A write of one limb leaves every other limb as it was. -/
theorem limb_setLimb_other (s : State) {bk ck : BankId} {i j : Nat} (h : ck ≠ bk ∨ j ≠ i) (v : Word) :
    (s.setLimb bk i v).limb ck j = s.limb ck j := by
  have he : (s.setLimb bk i v).epoch = s.epoch := by simp [State.setLimb]
  by_cases hb : ck = bk
  · subst hb
    have hij : i ≠ j := fun e => h.elim (fun h => h rfl) fun h => h e.symm
    simp [State.limb, State.setLimb, hij]
  · exact limb_congr (bank_setBank_other s hb _) he j

/-- A write marks its limb written. -/
theorem isWritten_setLimb_same (s : State) (bk : BankId) {i : Nat} (h : i < 16) (v : Word) :
    (s.setLimb bk i v).isWritten bk i = true := by
  simp [State.isWritten, State.setLimb, h]

/-- A write leaves the written mark of every other limb. -/
theorem isWritten_setLimb_other (s : State) {bk ck : BankId} {i j : Nat} (h : ck ≠ bk ∨ j ≠ i) (v : Word) :
    (s.setLimb bk i v).isWritten ck j = s.isWritten ck j := by
  by_cases hb : ck = bk
  · subst hb
    have hij : i ≠ j := fun e => h.elim (fun h => h rfl) fun h => h e.symm
    simp [State.isWritten, State.setLimb, hij]
  · exact isWritten_congr (bank_setBank_other s hb _) j

/-- Limb i of a result bank. -/
theorem ofResult_get (r : Limbs) {i : Nat} (h : i < 16) :
    (Bank.ofResult r)[i]? = some { value := limbAt r i, written := true } := by
  simp [Bank.ofResult, h]

/-- After a result is written, RES reads it, with 0 past its end. -/
theorem limb_of_bankRes {t : State} {r : Limbs} (h : t.bankRes = Bank.ofResult r) {i : Nat} (hi : i < 16) :
    t.limb .res i = limbAt r i := by
  simp [State.limb, h, ofResult_get r hi]

/-- After a result is written, every limb of RES is written. -/
theorem isWritten_of_bankRes {t : State} {r : Limbs} (h : t.bankRes = Bank.ofResult r) {i : Nat} (hi : i < 16) :
    t.isWritten .res i = true := by
  simp [State.isWritten, h, ofResult_get r hi]

/-- No limb of a bank after reset is written. -/
theorem isWritten_reset_bank {t : State} {bk : BankId} (h : t.bank bk = Bank.reset) (i : Nat) :
    t.isWritten bk i = false := by
  unfold State.isWritten
  rw [h]
  simp only [Bank.reset, Vector.getElem?_replicate]
  split_ifs <;> rfl

/-- The effective limb count lies in 1..16. -/
theorem effL_range {clamp : Bool} {f : BitVec 5} {l : Nat} (h : effL clamp f = some l) : 1 ≤ l ∧ l ≤ 16 := by
  unfold effL at h
  split_ifs at h <;> simp at h <;> omega

/-- The effective window width is 1, 3, 4 or 5. -/
theorem effK_range {f : BitVec 4} {e k : Nat} (h : effK f e = some k) : k ∈ [1, 3, 4, 5] := by
  unfold effK selectK at h
  split_ifs at h with h0 h1 h2 h3 hl
  all_goals try (simp at h; subst h; simp)
  simp only [kselLegal, Bool.or_eq_true, beq_iff_eq] at hl
  rcases hl with (((rfl | rfl) | rfl) | rfl) | rfl <;> simp_all

/-- A command with an effective limb count has that of its rule as its window width. -/
@[simp] theorem latchedWidth_some (d : Decoded) (f : BitVec 4) (l : Nat) (expLen : Nat → Nat) :
    latchedWidth d f (some l) expLen = widthOf d f (expLen l) := rfl

/-- Without an effective limb count only MODEXPG has a window width. -/
@[simp] theorem latchedWidth_none (d : Decoded) (f : BitVec 4) (expLen : Nat → Nat) :
    latchedWidth d f none expLen = if d = .instr .modexpg then some 1 else none := rfl

end Sys2Proof.Machine
end

