-- ==== Sys2Proof/Laws/Bus.lean ====
section
/-! SUPPORT. What the host's accesses can do. -/

namespace Sys2Proof.Machine

/-- The window offset of an address inside the window. -/
@[simp] theorem windowOffset_add {off : Nat} (h : off < 4096) : windowOffset (Config.baseAddr + off) = some off := by
  simp [windowOffset, h]

/-- Addresses outside the window have no offset. -/
theorem windowOffset_outside {addr : Nat} (h : addr < Config.baseAddr ∨ Config.baseAddr + 4096 ≤ addr) :
    windowOffset addr = none := by
  unfold windowOffset
  rw [if_neg]
  omega

/-- An offset that the window operation answers lies in the window. -/
theorem windowOffset_lt {addr off : Nat} (h : windowOffset addr = some off) :
    off < 4096 ∧ addr = Config.baseAddr + off := by
  unfold windowOffset at h
  split_ifs at h with hw
  simp only [Option.some.injEq] at h
  omega

/-- Everything a host access that answers a next state can be. -/
theorem hostAccess_next {addr : Nat} {act : Nat → State} {t : State} (h : hostAccess addr act = .next t) :
    ∃ off, off < 4096 ∧ addr = Config.baseAddr + off ∧ t = act off := by
  unfold hostAccess at h
  split at h
  next off hoff => exact ⟨off, (windowOffset_lt hoff).1, (windowOffset_lt hoff).2, by cases h; rfl⟩
  next => cases h

/-- Everything a write of a target can do: nothing, a drop while busy, the W1C effect of STATUS, or, while idle, one of
the four writes that only an idle engine lets through. -/
theorem writeTarget_cases (s : State) (t : Target) (v : Word) :
    s.writeTarget t v = s ∨
    (s.busy = true ∧ s.writeTarget t v = s.dropWrite) ∨
    (t = .status ∧ s.writeTarget t v = s.clearStatus v) ∨
    (s.busy = false ∧
      ((t = .cmd ∧ s.writeTarget t v = s.accept (decode v)) ∨ (t = .cfg ∧ s.writeTarget t v = s.writeCfg v) ∨
       (t = .n0 ∧ s.writeTarget t v = s.writeN0 v) ∨
       ∃ bk i, bk ≠ .res ∧ t = .limb bk i ∧ s.writeTarget t v = s.setLimb bk i.val v)) := by
  cases hb : s.busy
  · cases t with
    | limb bk i =>
      cases bk
      case res => exact .inl rfl
      all_goals
        refine .inr (.inr (.inr ⟨rfl, .inr (.inr (.inr ⟨_, i, ?_, rfl, ?_⟩))⟩)) <;>
          simp_all [State.writeTarget, State.whenIdle]
    | _ => simp [State.writeTarget, State.whenIdle, State.writeCmd, hb]
  · cases t with
    | limb bk i => cases bk <;> simp [State.writeTarget, State.whenIdle, hb]
    | _ => simp [State.writeTarget, State.whenIdle, State.writeCmd, hb]

/-- Everything a read at an offset can do. -/
theorem readAt_cases (off : Nat) (size : AccessSize) (s : State) :
    (busError off size = true ∧ s.readAt off size = s.respondReadError) ∨
    (busError off size = false ∧ s.readAt off size = s.respond (.readData (s.readTarget (targetAt off)))) := by
  cases h : busError off size <;> simp [State.readAt, h]

/-- Everything a write at an offset can do. -/
theorem writeAt_cases (off : Nat) (size : AccessSize) (v : Word) (s : State) :
    (busError off size = true ∧ s.writeAt off size v = s.respond .writeError) ∨
    (busError off size = false ∧
      s.writeAt off size v = (s.writeTarget (targetAt off) v).respond .writeDone) := by
  cases h : busError off size <;> simp [State.writeAt, h]

/-- Everything a landing write can do: nothing, where the fabric holds no such write, or what a host write does there,
with the write taken out of the fabric. -/
theorem land_cases (i : Nat) (s : State) :
    (s.fabric[i]? = none ∧ s.land i = s) ∨
    (∃ w, s.fabric[i]? = some w ∧
      s.land i = ((s.withFabric (s.fabric.take i)).writeAt w.off w.size w.data).withFabric (s.fabric.eraseIdx i)) := by
  cases h : s.fabric[i]? with
  | none => exact .inl ⟨rfl, by simp [State.land, h]⟩
  | some w => exact .inr ⟨w, rfl, by simp [State.land, h]⟩

/-- A write of an operand has a window offset that gets no bus error. -/
theorem isOperand_target {w : PostedWrite} (h : w.isOperand = true) :
    busError w.off w.size = false ∧ (targetAt w.off).isOperand = true := by
  simpa [PostedWrite.isOperand] using h

/-- While the engine is busy a write of an operand is dropped. -/
theorem writeTarget_operand_busy {s : State} {t : Target} (ht : t.isOperand = true) (hb : s.busy = true) (v : Word) :
    s.writeTarget t v = s.dropWrite := by
  cases t with
  | limb bk i => cases bk <;> simp_all [Target.isOperand, State.writeTarget, State.whenIdle]
  | _ => simp_all [Target.isOperand, State.writeTarget, State.whenIdle]

end Sys2Proof.Machine
end

