-- ==== Sys2Proof/Laws/Commands.lean ====
section
/-! SUPPORT. What each command's completion can do: one lemma per command, and one for all four. -/

namespace Sys2Proof.Machine

/-- A state with the outputs of a command replaced, and a model fault recorded where `f` holds. -/
def State.withOutputs (f : Bool) (res : Bank) (e : BitVec 11) (k : BitVec 3) (q m : BitVec 32) (s : State) : State :=
  { s with
    unwrittenOperand := s.unwrittenOperand || f, bankRes := res, expBits := e, winK := k, sqr := q, mul := m }

/-- A state with a model fault recorded where `f` holds. -/
def State.record (f : Bool) (s : State) : State := { s with unwrittenOperand := s.unwrittenOperand || f }

@[simp] theorem withOutputs_fields (f : Bool) (res : Bank) (e : BitVec 11) (k : BitVec 3) (q m : BitVec 32) (s : State) :
    (s.withOutputs f res e k q m).unwrittenOperand = (s.unwrittenOperand || f) ∧
    (s.withOutputs f res e k q m).bankRes = res ∧ (s.withOutputs f res e k q m).expBits = e ∧
    (s.withOutputs f res e k q m).winK = k ∧ (s.withOutputs f res e k q m).sqr = q ∧
    (s.withOutputs f res e k q m).mul = m ∧ (s.withOutputs f res e k q m).phase = s.phase ∧
    (s.withOutputs f res e k q m).done = s.done ∧ (s.withOutputs f res e k q m).busyErr = s.busyErr ∧
    (s.withOutputs f res e k q m).errCode = s.errCode ∧ (s.withOutputs f res e k q m).lcount = s.lcount ∧
    (s.withOutputs f res e k q m).ksel = s.ksel ∧ (s.withOutputs f res e k q m).irqEn = s.irqEn ∧
    (s.withOutputs f res e k q m).n0 = s.n0 ∧ (s.withOutputs f res e k q m).bankN = s.bankN ∧
    (s.withOutputs f res e k q m).bankRR = s.bankRR ∧ (s.withOutputs f res e k q m).bankA = s.bankA ∧
    (s.withOutputs f res e k q m).bankB = s.bankB ∧ (s.withOutputs f res e k q m).internals = s.internals ∧
    (s.withOutputs f res e k q m).schedule = s.schedule ∧ (s.withOutputs f res e k q m).response = s.response ∧
    (s.withOutputs f res e k q m).busErrorRead = s.busErrorRead ∧ (s.withOutputs f res e k q m).draws = s.draws ∧
    (s.withOutputs f res e k q m).epoch = s.epoch ∧ (s.withOutputs f res e k q m).fabric = s.fabric ∧
    (s.withOutputs f res e k q m).inFlight = s.inFlight := by
  and_intros <;> rfl

@[simp] theorem record_fields (f : Bool) (s : State) :
    (s.record f).unwrittenOperand = (s.unwrittenOperand || f) ∧ (s.record f).phase = s.phase ∧
    (s.record f).done = s.done ∧ (s.record f).busyErr = s.busyErr ∧ (s.record f).errCode = s.errCode ∧
    (s.record f).lcount = s.lcount ∧ (s.record f).ksel = s.ksel ∧ (s.record f).irqEn = s.irqEn ∧
    (s.record f).n0 = s.n0 ∧ (s.record f).expBits = s.expBits ∧ (s.record f).winK = s.winK ∧
    (s.record f).sqr = s.sqr ∧ (s.record f).mul = s.mul ∧ (s.record f).bankN = s.bankN ∧
    (s.record f).bankRR = s.bankRR ∧ (s.record f).bankA = s.bankA ∧ (s.record f).bankB = s.bankB ∧
    (s.record f).bankRes = s.bankRes ∧ (s.record f).internals = s.internals ∧ (s.record f).schedule = s.schedule ∧
    (s.record f).response = s.response ∧ (s.record f).busErrorRead = s.busErrorRead ∧ (s.record f).draws = s.draws ∧
    (s.record f).epoch = s.epoch ∧ (s.record f).fabric = s.fabric ∧ (s.record f).inFlight = s.inFlight := by
  and_intros <;> rfl

@[simp] theorem record_false (s : State) : s.record false = s := by simp [State.record]

/-- Noting reads changes the recorded model fault and nothing else. -/
theorem noteReads_eq (bk : BankId) (l : Nat) (s : State) :
    ∃ f, s.noteReads bk l = s.record f := ⟨_, rfl⟩

/-- MONTMUL either reports an error, or writes its result and counts one multiplication. -/
theorem montmulStep_cases (s : State) :
    (∃ f c, c ≠ ErrorCode.none ∧
      montmulStep s = (s.record f).finish c) ∨
    (∃ f l, effL Config.clampLcount s.internals.lcount = some l ∧ s.modulusEven = false ∧
      montmulStep s = (s.withOutputs f (Bank.ofResult (montmulResult l s)) s.expBits s.winK 0 1).finish .none) := by
  unfold montmulStep
  cases hl : effL Config.clampLcount s.internals.lcount with
  | none => exact .inl ⟨false, .badLcount, by decide, by simp⟩
  | some l =>
    by_cases he : s.modulusEven = true
    · obtain ⟨f, hf⟩ := noteReads_eq .n 1 s
      exact .inl ⟨f, .evenModulus, by decide, by simp [he, hf]⟩
    · exact .inr ⟨_, l, rfl, by simpa using he, by simp only [he, State.noteReads, Bool.or_assoc]; rfl⟩

/-- BITLEN either reports an error, or writes EXPBITS and WINK and clears OPCOUNT. -/
theorem bitlenStep_cases (s : State) :
    (∃ f c, c ≠ ErrorCode.none ∧
      bitlenStep s = (s.record f).finish c) ∨
    (∃ f l k, effL Config.clampLcount s.internals.lcount = some l ∧
      effK s.internals.ksel (bitLen (s.limbs .b l) l) = some k ∧
      bitlenStep s = (s.withOutputs f s.bankRes (BitVec.ofNat 11 (bitLen (s.limbs .b l) l)) (BitVec.ofNat 3 k) 0 0).finish
        .none) := by
  unfold bitlenStep
  cases hl : effL Config.clampLcount s.internals.lcount with
  | none => exact .inl ⟨false, .badLcount, by decide, by simp⟩
  | some l =>
    cases hk : effK s.internals.ksel (bitLen (s.limbs .b l) l) with
    | none =>
      obtain ⟨f, hf⟩ := noteReads_eq .b l s
      exact .inl ⟨f, .badKsel, by decide, by simp [hk, hf]⟩
    | some k => exact .inr ⟨_, l, k, rfl, hk, by simp only [hk]; rfl⟩

/-- The outputs of an exponentiation. -/
theorem modexpFinish_eq (site : Config.DrawSite) (l k : Nat) (s : State) :
    ∃ f, modexpFinish site l k s =
      (s.withOutputs f (Bank.ofResult (modexpResult site l k s)) (BitVec.ofNat 11 (bitLen (s.limbs .b l) l))
        (BitVec.ofNat 3 k) (BitVec.ofNat 32 (modexpRun l k s).sqr) (BitVec.ofNat 32 (modexpRun l k s).mul)).finish
        .none :=
  ⟨_, by
    simp only [modexpFinish, State.noteReads, State.writeRes, State.writeScan, State.writeOpCount, State.succeed,
      Bool.or_assoc]
    rfl⟩

/-- MODEXP4 either reports an error, or writes the outputs of the exponentiation at L = 4. -/
theorem modexp4Step_cases (s : State) :
    (∃ f c, c ≠ ErrorCode.none ∧
      modexp4Step s = (s.record f).finish c) ∨
    (∃ k, effK s.internals.ksel (bitLen (s.limbs .b 4) 4) = some k ∧ s.modulusEven = false ∧
      modexp4Step s = modexpFinish .modexp4 4 k s) := by
  unfold modexp4Step
  cases hk : effK s.internals.ksel (bitLen (s.limbs .b 4) 4) with
  | none => exact .inl ⟨false, .badKsel, by decide, by simp⟩
  | some k =>
    by_cases he : s.modulusEven = true
    · obtain ⟨f, hf⟩ := noteReads_eq .n 1 s
      exact .inl ⟨f, .evenModulus, by decide, by simp [he, hf]⟩
    · exact .inr ⟨k, rfl, by simpa using he, by simp [he]⟩

/-- MODEXPG either reports an error, or writes the outputs of the exponentiation with k = 1. -/
theorem modexpgStep_cases (s : State) :
    (∃ f c, c ≠ ErrorCode.none ∧
      modexpgStep s = (s.record f).finish c) ∨
    (∃ l, effL Config.clampLcount s.internals.lcount = some l ∧ s.modulusEven = false ∧
      modexpgStep s = modexpFinish .modexpg l 1 s) := by
  unfold modexpgStep
  cases hl : effL Config.clampLcount s.internals.lcount with
  | none => exact .inl ⟨false, .badLcount, by decide, by simp⟩
  | some l =>
    by_cases he : s.modulusEven = true
    · obtain ⟨f, hf⟩ := noteReads_eq .n 1 s
      exact .inl ⟨f, .evenModulus, by decide, by simp [he, hf]⟩
    · exact .inr ⟨l, rfl, by simpa using he, by simp [he]⟩

/-- Everything a command can do: it completes with a code, and may change RES, EXPBITS, WINK, OPCOUNT and the
recorded model fault; with an error, the fault alone. -/
theorem exec_shape (i : Instr) (s : State) :
    ∃ f c res e k q m, exec i s = .next ((s.withOutputs f res e k q m).finish c) ∧
      (c ≠ .none → res = s.bankRes ∧ e = s.expBits ∧ k = s.winK ∧ q = s.sqr ∧ m = s.mul) := by
  cases i with
  | montmul =>
    rcases montmulStep_cases s with ⟨f, c, _, h⟩ | ⟨f, l, _, _, h⟩
    · exact ⟨f, c, _, _, _, _, _, congrArg _ h, fun _ => ⟨rfl, rfl, rfl, rfl, rfl⟩⟩
    · exact ⟨f, .none, _, _, _, _, _, congrArg _ h, fun h => absurd rfl h⟩
  | bitlen =>
    rcases bitlenStep_cases s with ⟨f, c, _, h⟩ | ⟨f, l, k, _, _, h⟩
    · exact ⟨f, c, _, _, _, _, _, congrArg _ h, fun _ => ⟨rfl, rfl, rfl, rfl, rfl⟩⟩
    · exact ⟨f, .none, _, _, _, _, _, congrArg _ h, fun h => absurd rfl h⟩
  | modexp4 =>
    rcases modexp4Step_cases s with ⟨f, c, _, h⟩ | ⟨k, _, _, h⟩
    · exact ⟨f, c, _, _, _, _, _, congrArg _ h, fun _ => ⟨rfl, rfl, rfl, rfl, rfl⟩⟩
    · obtain ⟨f, hf⟩ := modexpFinish_eq .modexp4 4 k s
      exact ⟨f, .none, _, _, _, _, _, congrArg _ (h.trans hf), fun h => absurd rfl h⟩
  | modexpg =>
    rcases modexpgStep_cases s with ⟨f, c, _, h⟩ | ⟨l, _, _, h⟩
    · exact ⟨f, c, _, _, _, _, _, congrArg _ h, fun _ => ⟨rfl, rfl, rfl, rfl, rfl⟩⟩
    · obtain ⟨f, hf⟩ := modexpFinish_eq .modexpg l 1 s
      exact ⟨f, .none, _, _, _, _, _, congrArg _ (h.trans hf), fun h => absurd rfl h⟩

end Sys2Proof.Machine
end

