-- ==== Sys2Proof/Laws/PerInstr.lean ====
section
/-! SUPPORT. The per-instruction family CommandWord: what each command's word is. -/

namespace Sys2Proof.Laws.CommandWord

/-- The word of a command is well formed, the command is, and its low 64 bits as the opcode table numbers them decode
to the command. -/
def Statement (i : Instr) : Prop :=
  i.wellFormed = true ∧ wordWellFormed (encode i) = true ∧ decodeTableWord 64 (encode i).toNat = some i

theorem montmul : Statement .montmul := by unfold Statement; decide

theorem bitlen : Statement .bitlen := by unfold Statement; decide

theorem modexp4 : Statement .modexp4 := by unfold Statement; decide

theorem modexpg : Statement .modexpg := by unfold Statement; decide

end Sys2Proof.Laws.CommandWord
end

