-- ==== Sys2Proof/Laws/Step.lean ====
section
/-! SUPPORT. What a step can do. -/

namespace Sys2Proof.Machine

/-- Everything the engine's step can do. -/
theorem engineTurn_cases (s : State) :
    (s.busy = false ∧ engineTurn s = .next s) ∨
    (s.busy = true ∧ ∃ i, s.internals.op = .instr i ∧ engineTurn s = exec i s) ∨
    (s.busy = true ∧ s.internals.op = .illegal ∧ engineTurn s = .next (s.finish .illegalOp)) := by
  cases hp : s.phase with
  | idle => exact .inl ⟨(busy_eq_false s).2 hp, by simp [engineTurn, hp]⟩
  | busy =>
    cases ho : s.internals.op with
    | instr i => exact .inr (.inl ⟨(busy_eq_true s).2 hp, i, rfl, by simp [engineTurn, hp, ho]⟩)
    | illegal => exact .inr (.inr ⟨(busy_eq_true s).2 hp, rfl, by simp [engineTurn, hp, ho, illegalStep]⟩)

/-- A scheduled read in the window is performed. -/
theorem step_read (s : State) {off : Nat} (h : off < 4096) (size : AccessSize) (rest : List Event) :
    step (s.withSchedule (.read (Config.baseAddr + off) size :: rest)) = .next ((s.withSchedule rest).readAt off size) := by
  show hostAccess _ _ = _
  simp [hostAccess, h]

/-- A scheduled write in the window is performed. -/
theorem step_write (s : State) {off : Nat} (h : off < 4096) (size : AccessSize) (v : Word) (rest : List Event) :
    step (s.withSchedule (.write (Config.baseAddr + off) size v :: rest))
      = .next ((s.withSchedule rest).writeAt off size v) := by
  show hostAccess _ _ = _
  simp [hostAccess, h]

/-- A scheduled reset is performed. -/
theorem step_reset (s : State) (rest : List Event) :
    step (s.withSchedule (.reset :: rest)) = .next (s.withSchedule rest).resetInput := rfl

/-- A scheduled issue of a write in the window puts it into the fabric. -/
theorem step_issue (s : State) {off : Nat} (h : off < 4096) (size : AccessSize) (v : Word) (rest : List Event) :
    step (s.withSchedule (.issue (Config.baseAddr + off) size v :: rest))
      = .next ((s.withSchedule rest).issue off size v) := by
  show hostAccess _ _ = _
  simp [hostAccess, h]

/-- A scheduled landing is performed. -/
theorem step_land (s : State) (i : Nat) (rest : List Event) :
    step (s.withSchedule (.land i :: rest)) = .next ((s.withSchedule rest).land i) := rfl

/-- A scheduled engine step is performed. -/
theorem step_engine (s : State) (rest : List Event) :
    step (s.withSchedule (.engine :: rest)) = engineTurn (s.withSchedule rest) := rfl

/-- With nothing scheduled the engine takes its step. -/
theorem step_unscheduled (s : State) : step (s.withSchedule []) = engineTurn (s.withSchedule []) := rfl

/-- Everything a step that answers a next state can be, by the event that comes next. -/
theorem step_cases {s t : State} (h : step s = .next t) :
    ((s.schedule = [] ∨ ∃ rest, s.schedule = .engine :: rest) ∧
      engineTurn (s.withSchedule s.schedule.tail) = .next t) ∨
    (∃ addr size rest off, s.schedule = .read addr size :: rest ∧ off < 4096 ∧ addr = Config.baseAddr + off ∧
      t = (s.withSchedule rest).readAt off size) ∨
    (∃ addr size v rest off, s.schedule = .write addr size v :: rest ∧ off < 4096 ∧ addr = Config.baseAddr + off ∧
      t = (s.withSchedule rest).writeAt off size v) ∨
    (∃ rest, s.schedule = .reset :: rest ∧ t = (s.withSchedule rest).resetInput) ∨
    (∃ addr size v rest off, s.schedule = .issue addr size v :: rest ∧ off < 4096 ∧ addr = Config.baseAddr + off ∧
      t = (s.withSchedule rest).issue off size v) ∨
    (∃ i rest, s.schedule = .land i :: rest ∧ t = (s.withSchedule rest).land i) := by
  unfold step nextPoint at h
  cases hs : s.schedule with
  | nil =>
    rw [hs] at h
    have : s.withSchedule [] = s := by rw [← hs]; rfl
    exact .inl ⟨.inl rfl, this.symm ▸ h⟩
  | cons e rest =>
    rw [hs] at h
    cases e with
    | read addr size =>
      obtain ⟨off, h1, h2, h3⟩ := hostAccess_next h
      exact .inr (.inl ⟨addr, size, rest, off, rfl, h1, h2, h3⟩)
    | write addr size v =>
      obtain ⟨off, h1, h2, h3⟩ := hostAccess_next h
      exact .inr (.inr (.inl ⟨addr, size, v, rest, off, rfl, h1, h2, h3⟩))
    | reset => exact .inr (.inr (.inr (.inl ⟨rest, rfl, by cases h; rfl⟩)))
    | issue addr size v =>
      obtain ⟨off, h1, h2, h3⟩ := hostAccess_next h
      exact .inr (.inr (.inr (.inr (.inl ⟨addr, size, v, rest, off, rfl, h1, h2, h3⟩))))
    | land i => exact .inr (.inr (.inr (.inr (.inr ⟨i, rest, rfl, by cases h; rfl⟩))))
    | engine => exact .inl ⟨.inr ⟨rest, rfl⟩, h⟩

/-- A run of one step more. -/
theorem run_next {s t : State} (h : step s = .next t) (k : Nat) :
    Sys2Proof.core.run (k + 1) s = Sys2Proof.core.run k t := by
  have h' : Sys2Proof.core.step s = .next t := h
  simp only [Host.Core.run, h']

end Sys2Proof.Machine
end

