-- ==== Sys2Proof/Tests/Slice0.lean ====
section
/-! SUPPORT. Tests of the model against spec/, and for each statement with hypotheses a state and operands that meet them. -/

namespace Sys2Proof.Tests

open Sys2Proof Sys2Proof.Machine

/-! ### Helpers -/

/-- A bank whose first limbs are written with `r` and whose other limbs are unwritten. -/
def bankOf (r : Limbs) : Bank := Vector.ofFn fun i => { value := limbAt r i.val, written := decide (i.val < r.length) }

/-- A state after reset with CFG, N0 and the input banks written. -/
def load (lcount : BitVec 5) (ksel : BitVec 4) (n0 : Word) (n rr a b : Limbs) : State :=
  { State.reset with
    lcount := lcount, ksel := ksel, n0 := n0, bankN := bankOf n, bankRR := bankOf rr, bankA := bankOf a, bankB := bankOf b }

/-- `load`, with a command just accepted. -/
def ready (i : Instr) (lcount : BitVec 5) (ksel : BitVec 4) (n0 : Word) (n rr a b : Limbs) : State :=
  (load lcount ksel n0 n rr a b).accept (.instr i)

/-- What the host reads of a completed command: RES limb 0 and 1, EXPBITS, WINK, OPCOUNT and STATUS. -/
def seen (o : Host.Outcome State Fault Refusal) : List Word :=
  match o with
  | .next t => [t.readTarget (.limb .res 0), t.readTarget (.limb .res 1), t.readTarget .expBits, t.readTarget .winK,
      t.readTarget .opCount, t.readTarget .status]
  | _ => []

/-- What the host reads of a command that does not write RES: EXPBITS, WINK, OPCOUNT and STATUS. -/
def seenScan (o : Host.Outcome State Fault Refusal) : List Word := (seen o).drop 2

/-- The constant n0 for n = 3233 (spec/95_test_vectors.md). -/
def n0Toy : Word := 0x85BDA4F0669F289F

/-! ### Well-formedness: an ill-formed word for each check -/

/-- R80: bit 4 set (ER-4). -/
theorem test_mbz_check_refuses : mbzClear 0x13 = false := by decide

/-- R81: opcodes 0 and 5 (ER-1, ER-2). -/
theorem test_op_check_refuses : opAssigned 0x0 = false ∧ opAssigned 0x5 = false := by decide

/-- R83: the two checks together refuse every word of ER-1 to ER-5. -/
theorem test_word_check_refuses :
    [0x0, 0x5, 0xF, 0x13, 0x8000000000000003].all (fun v => !wordWellFormed v) = true := by decide

/-! ### Decoding: words written out from R80 and R81 -/

/-- MONTMUL: OP = 0001 in bits 3:0, MBZ = 0 in bits 63:4. -/
theorem test_decode_montmul : decode ((0 : BitVec 60) ++ (0b0001 : BitVec 4)) = .instr .montmul := by decide

/-- BITLEN: OP = 0010. -/
theorem test_decode_bitlen : decode ((0 : BitVec 60) ++ (0b0010 : BitVec 4)) = .instr .bitlen := by decide

/-- MODEXP4: OP = 0011. -/
theorem test_decode_modexp4 : decode ((0 : BitVec 60) ++ (0b0011 : BitVec 4)) = .instr .modexp4 := by decide

/-- MODEXPG: OP = 0100. -/
theorem test_decode_modexpg : decode ((0 : BitVec 60) ++ (0b0100 : BitVec 4)) = .instr .modexpg := by decide

/-- The illegal words of ER-3, ER-4 and ER-5. -/
theorem test_decode_illegal :
    decode 0xF = .illegal ∧ decode 0x13 = .illegal ∧ decode 0x8000000000000003 = .illegal := by decide

/-! ### The commands, on vectors of spec/95_test_vectors.md -/

/-- MM-4: ACC[L] = 1 forces the subtraction. -/
theorem test_montmul_top_word_forces_subtraction :
    seen (exec .montmul (ready .montmul 1 0 0xCBEEA4E1A08AD8F3 [0xFFFFFFFFFFFFFFC5] [] [0xC2CE6F447ED4D57B]
      [0x78E510617311D8A3])) = [0x367C4CC356526DCD, 0, 0, 0, 0x0000000100000000, 0x02] := by decide +kernel

/-- MM-7: two rows, carries across limbs, no subtraction. -/
theorem test_montmul_two_limbs :
    seen (exec .montmul (ready .montmul 2 0 0x1084210842108421 [0x1F, 0x8000000000000001] []
      [0x3039, 0x4000000000000000] [0x3ADE68B1, 0x2000000000000000]))
      = [0x1347A8750EC9D367, 0x7F0F2F281A7AF56A, 0, 0, 0x0000000100000000, 0x02] := by decide +kernel

/-- BL-8: the first E of k = 5. -/
theorem test_bitlen_first_of_five :
    seenScan (exec .bitlen (ready .bitlen 3 0 0 [] [] [] [0, 0, 0x8000])) = [144, 5, 0, 0x02] := by decide +kernel

/-- ER-10: KSEL = 2 is refused with BAD_KSEL. -/
theorem test_bitlen_bad_ksel :
    seenScan (exec .bitlen (ready .bitlen 1 2 0 [] [] [] [17])) = [0, 0, 0, 0x32] := by decide +kernel

/-- M-12: a window that straddles limbs 1 and 0. -/
theorem test_modexp4_straddling_window :
    seen (exec .modexp4 (ready .modexp4 0 0 n0Toy [3233, 0, 0, 0] [789, 0, 0, 0] [65, 0, 0, 0]
      [0x8000000000000001, 0x3, 0, 0])) = [1322, 0, 66, 4, 0x0000000A00000040, 0x02] := by decide +kernel

/-- ER-12: BAD_KSEL outranks EVEN_MODULUS. -/
theorem test_modexp4_bad_ksel_first :
    seenScan (exec .modexp4 (ready .modexp4 0 2 n0Toy [3232, 0, 0, 0] [789, 0, 0, 0] [65, 0, 0, 0] [17, 0, 0, 0]))
      = [0, 0, 0, 0x32] := by decide +kernel

/-- M-5 and ER-16: MODEXPG at L = 1 ignores KSEL = 2. -/
theorem test_modexpg_ignores_ksel :
    seen (exec .modexpg (ready .modexpg 1 2 n0Toy [3233] [1232] [65] [17]))
      = [2790, 0, 5, 1, 0x0000000300000004, 0x02] := by decide +kernel

/-- R163 at L = 16: a zero exponent gives one_L with no product. -/
theorem test_modexpg_zero_exponent :
    seen (exec .modexpg (ready .modexpg 16 0 0 (List.replicate 16 7) (List.replicate 16 0) (List.replicate 16 9)
      (List.replicate 16 0))) = [1, 0, 0, 1, 0, 0x02] := by decide +kernel

/-! ### Operand decoders, windows and bus -/

/-- ER-8: with CLAMP_LCOUNT an oversize count runs at 16, without it it fails. -/
theorem test_clamp : effL true 17 = some 16 ∧ effL false 17 = none ∧ effL true 0 = none := by decide

/-- M-17 at k = 5: the windows (11,5,25,5) and (5,5,1,1). -/
theorem test_windows :
    windowsOf [3232, 0, 0, 0] 4 5 = [⟨11, 5, 25, 5⟩, ⟨5, 5, 1, 1⟩] := by decide +kernel

/-- T-1: the odd-power table of 65 for k = 3. -/
theorem test_table :
    (buildTable (mm n0Toy [3233, 0, 0, 0]) [332, 0, 0, 0] 3).1.map val = [332, 2811, 1666, 609] := by decide +kernel

/-- BE-8: CFG reads back with its reserved bits 0. -/
theorem test_cfg_reads_back :
    ((State.reset.writeAt 0x018 (.bytes 8) 0xFFFFFFFFFFFFFFFF).readTarget .cfg) = 0x10F1F := by decide +kernel

/-- BE-1 to BE-4: the bus errors. -/
theorem test_bus_errors :
    busError 0x010 (.bytes 4) = true ∧ busError 0x004 (.bytes 8) = true ∧ busError 0x040 (.bytes 8) = true ∧
    busError 0x380 (.bytes 8) = true ∧ busError 0x378 (.bytes 8) = false := by decide

/-- R68: BASE_ADDR is a multiple of 4096. -/
theorem test_base_is_page_aligned : Config.baseAddr % 4096 = 0 := by simp [Config.baseAddr]

/-- R88: CFGSET L=1, K=0, IRQ=1 is a write of 0x10001 to CFG (P2), and TOMONT writes A, B and CMD (R87). -/
theorem test_cfgset : asmCfgSet 1 0 1 = [.write (Config.baseAddr + 0x018) (.bytes 8) 0x10001] := rfl

theorem test_tomont : (asmToMont 1 65 1232 0).take 3 =
    [.write (Config.baseAddr + 0x200) (.bytes 8) 0x41, .write (Config.baseAddr + 0x280) (.bytes 8) 0x4D0,
     .write (Config.baseAddr + 0x008) (.bytes 8) 0x1] := rfl

/-- R246: the writes of N, RR, A, B, N0 and CFG are operand writes; those of RES, CMD and STATUS are not, and neither is
one that gets a bus error. -/
theorem test_operand_writes :
    [0x100, 0x1F8, 0x200, 0x2F8, 0x020, 0x018].all (fun o => (PostedWrite.mk o (.bytes 8) 0).isOperand) = true ∧
    [0x300, 0x008, 0x010, 0x104].all (fun o => !(PostedWrite.mk o (.bytes 8) 0).isOperand) = true ∧
    (PostedWrite.mk 0x100 (.bytes 4) 0).isOperand = false := by decide

/-- R246: a CMD write that overtakes a write of B[0] is accepted with the mark, and one issued before it without. -/
theorem test_command_overtakes :
    let b0 : PostedWrite := { off := 0x280, size := .bytes 8, data := 7 }
    let cmd : PostedWrite := { off := 0x008, size := .bytes 8, data := 1 }
    ((State.reset.withFabric [b0, cmd]).land 1).inFlight = true ∧
    ((State.reset.withFabric [cmd, b0]).land 0).inFlight = false ∧
    (((State.reset.withFabric [b0, cmd]).land 1).land 0).busyErr = true := by decide

/-- R41: a BITLEN whose LCOUNT is 0 has no width to latch; MODEXPG has k = 1 (R86). -/
theorem test_latched_width :
    latchedWidth (.instr .bitlen) 0 none (fun _ => 0) = none ∧
    latchedWidth (.instr .modexpg) 0 none (fun _ => 0) = some 1 ∧
    latchedWidth (.instr .bitlen) 0 (some 1) (fun _ => 18) = some 3 := by decide

/-! ### States for the witnesses -/

/-- MODEXP4 on the toy RSA case M-1, just accepted. -/
def toy4 : State := ready .modexp4 4 0 n0Toy [3233, 0, 0, 0] [789, 0, 0, 0] [65, 0, 0, 0] [17, 0, 0, 0]

/-- MODEXPG on the toy RSA case M-5, just accepted. -/
def toyG : State := ready .modexpg 1 0 n0Toy [3233] [1232] [65] [17]

/-- MONTMUL on MM-1, just accepted. -/
def toyM : State := ready .montmul 1 0 n0Toy [3233] [] [65] [1232]

/-- MM-1, accepted while a write of B[0] is in flight (R246). -/
def lateM : State :=
  ((load 1 0 n0Toy [3233] [] [65] [1232]).withFabric [{ off := 0x280, size := .bytes 8, data := 7 }]).accept
    (.instr .montmul)

/-- The toy RSA case, accepted while a write of B[0] is in flight (R246). -/
def late4 : State :=
  ((load 4 0 n0Toy [3233, 0, 0, 0] [789, 0, 0, 0] [65, 0, 0, 0] [17, 0, 0, 0]).withFabric
    [{ off := 0x280, size := .bytes 8, data := 7 }]).accept (.instr .modexp4)

/-- MODEXPG on the toy RSA case M-5, idle. -/
def idleToy : State := load 1 0 n0Toy [3233] [1232] [65] [17]

/-! ### For every statement with hypotheses, values that meet all of them -/

theorem test_hyp_DecodeInvertsEncodeExactly : Instr.wellFormed .modexp4 = true := by decide

theorem test_hyp_IllegalWordCompletesWithIllegalOp :
    ((0x13 : Word).toNat / 16 ≠ 0 ∧ (0x0 : Word).toNat % 16 = 0 ∧ 5 ≤ (0x5 : Word).toNat % 16) ∧ idleToy.busy = false ∧
    (State.reset.accept .illegal).busy = true ∧ (State.reset.accept .illegal).internals.op = decode 0x13 := by
  decide +kernel

theorem test_hyp_EffectiveLimbCount :
    (0 : BitVec 5).toNat = 0 ∧ 1 ≤ (1 : BitVec 5).toNat ∧ (16 : BitVec 5).toNat ≤ 16 ∧ 17 ≤ (17 : BitVec 5).toNat := by
  decide

theorem test_hyp_EffectiveWindowWidth :
    (0 : BitVec 4).toNat = 0 ∧ (1 : BitVec 4).toNat = 1 ∧ (3 : BitVec 4).toNat = 3 ∧ (4 : BitVec 4).toNat = 4 ∧
    (5 : BitVec 4).toNat = 5 ∧ (2 : BitVec 4).toNat = 2 ∧ 6 ≤ (6 : BitVec 4).toNat := by decide

/-- R145 (corner cases): E = 17, 18, 47, 48, 143 and 144. -/
theorem test_hyp_WindowPolicyThresholds :
    [17, 18, 47, 48, 143, 144].map selectK = [1, 3, 3, 4, 4, 5] := by decide

theorem test_hyp_BitLenLaws : val [0, 1] ≠ 0 ∧ val [] = 0 ∧ bitLen [0, 1] 2 = 65 := by decide +kernel

theorem test_hyp_CiosRowCarryBounds :
    modulusOdd [3233] = true ∧ n0Correct n0Toy [3233] = true ∧ val [1232] < val [3233] ∧
    (Acc.zero 1).limbs.length = 1 ∧ (Acc.zero 1).value < 2 * val [3233] ∧ (Acc.zero 1).top.toNat ≤ 1 ∧
    (Acc.zero 1).overflow = 0 := by decide +kernel

/-- MM-3: the value before the subtraction equals n. -/
theorem test_hyp_ConditionalSubtractionReduces :
    let acc : Acc := { limbs := [3233], top := 0, overflow := 0 }
    acc.limbs.length = 1 ∧ acc.overflow = 0 ∧ acc.value < 2 * val [3233] ∧ condSub acc [3233] = [0] := by decide +kernel

theorem test_hyp_MontgomeryProductInContract :
    mmInContract n0Toy [3233] [65] [1232] = true ∧ radix 1 * 1689 % val [3233] = 1 % val [3233] := by decide +kernel

theorem test_hyp_MontgomeryRoundTrip :
    modulusOdd [3233] = true ∧ n0Correct n0Toy [3233] = true ∧ 1 < val [3233] ∧ val [65] < val [3233] := by
  decide +kernel

theorem test_hyp_MontmulInContractCompletes :
    effL Config.clampLcount toyM.internals.lcount = some 1 ∧ toyM.inFlight = false ∧
    mmInContract toyM.n0 (toyM.limbs .n 1) (toyM.limbs .a 1) (toyM.limbs .b 1) = true := by decide +kernel

/-- MM-9: A = 3238 is not below n. And MM-1 with a write of B[0] in flight at acceptance. -/
theorem test_hyp_MontmulOutOfContractCompletes :
    (effL Config.clampLcount lateM.internals.lcount = some 1 ∧ lateM.modulusEven = false ∧ lateM.inFlight = true) ∧
    let s := ready .montmul 1 0 n0Toy [3233] [] [3238] [1232]
    effL Config.clampLcount s.internals.lcount = some 1 ∧ s.modulusEven = false ∧
    mmInContract s.n0 (s.limbs .n 1) (s.limbs .a 1) (s.limbs .b 1) = false := by decide +kernel

theorem test_hyp_BitlenCompletes :
    let s := ready .bitlen 1 3 0 [] [] [] [17]
    effL Config.clampLcount s.internals.lcount = some 1 ∧
    effK s.internals.ksel (bitLen (s.limbs .b 1) 1) = some 3 := by decide +kernel

/-- T-1: baseMont = 332 is 65·R mod n at L = 4. -/
theorem test_hyp_OddPowerTableEntries :
    modulusOdd [3233, 0, 0, 0] = true ∧ n0Correct n0Toy [3233, 0, 0, 0] = true ∧ 3 ∈ [1, 3, 4, 5] ∧
    val [332, 0, 0, 0] = 65 * radix 4 % val [3233, 0, 0, 0] := by decide +kernel

theorem test_hyp_WindowExtractionIsShift : 1 ≤ 4 ∧ 4 ≤ 5 ∧ 4 ≤ 65 + 1 := by decide

/-- M-12: a window at bit 65 straddles limbs 1 and 0; one at bit 0 is short. -/
theorem test_hyp_WindowIsOddAndInTable :
    4 ∈ [1, 3, 4, 5] ∧ bitAt [0x8000000000000001, 0x3, 0, 0] 65 = true ∧
    bitAt [0x8000000000000001, 0x3, 0, 0] 0 = true := by decide +kernel

theorem test_hyp_ScanReachesTheEnd :
    let d : Scan := { x := [], isId := true, left := 5, sqr := 0, mul := 0 }
    1 ∈ [1, 3, 4, 5] ∧ 0 < d.left ∧ bitAt [17] (d.left - 1) = true := by decide +kernel

theorem test_hyp_ExponentiationOperationCounts :
    5 ∈ [1, 3, 4, 5] ∧ [3233].length ≤ 16 ∧ bitLen [0] 1 = 0 ∧ 0 < bitLen [17] 1 := by decide +kernel

theorem test_hyp_BinaryExponentiationCounts : 0 < bitLen [17] [3233].length := by decide +kernel

theorem test_hyp_ExponentiationProductBound : 1 ∈ [1, 3, 4, 5] := by decide

theorem test_hyp_ExponentiationInContract :
    modExpInContract n0Toy [3233] [65] [1232] = true ∧ 1 ∈ [1, 3, 4, 5] ∧ 0 < bitLen [17] 1 ∧ bitLen [0] 1 = 0 := by
  decide +kernel

theorem test_hyp_ResultIndependentOfWindowWidth :
    modExpInContract n0Toy [3233, 0, 0, 0] [65, 0, 0, 0] [789, 0, 0, 0] = true ∧ 1 ∈ [1, 3, 4, 5] ∧
    5 ∈ [1, 3, 4, 5] := by decide +kernel

theorem test_hyp_Modexp4InContractCompletes :
    effK toy4.internals.ksel (bitLen (toy4.limbs .b 4) 4) = some 1 ∧ toy4.inFlight = false ∧
    modExpInContract toy4.n0 (toy4.limbs .n 4) (toy4.limbs .a 4) (toy4.limbs .rr 4) = true ∧
    0 < bitLen (toy4.limbs .b 4) 4 := by decide +kernel

theorem test_hyp_ModexpgInContractCompletes :
    effL Config.clampLcount toyG.internals.lcount = some 1 ∧ toyG.inFlight = false ∧
    modExpInContract toyG.n0 (toyG.limbs .n 1) (toyG.limbs .a 1) (toyG.limbs .rr 1) = true ∧
    0 < bitLen (toyG.limbs .b 1) 1 := by decide +kernel

/-- M-11: a zero exponent. -/
theorem test_hyp_ZeroExponentGivesOne :
    let s := ready .modexp4 4 0 n0Toy [3233, 0, 0, 0] [789, 0, 0, 0] [65, 0, 0, 0] [0, 0, 0, 0]
    s.modulusEven = false ∧ s.inFlight = false ∧ effK s.internals.ksel 0 = some 1 ∧ bitLen (s.limbs .b 4) 4 = 0 ∧
    effL Config.clampLcount s.internals.lcount = some 4 := by decide +kernel

/-- M-16: RR of the wrong width. And M-1 with a write of B[0] in flight at acceptance. -/
theorem test_hyp_ExponentiationOutOfContractCompletes :
    (late4.modulusEven = false ∧ effK late4.internals.ksel (bitLen (late4.limbs .b 4) 4) = some 1 ∧
      effL Config.clampLcount late4.internals.lcount = some 4 ∧ late4.inFlight = true) ∧
    let s := ready .modexp4 4 0 n0Toy [3233, 0, 0, 0] [1232, 0, 0, 0] [65, 0, 0, 0] [17, 0, 0, 0]
    s.modulusEven = false ∧ effK s.internals.ksel (bitLen (s.limbs .b 4) 4) = some 1 ∧
    modExpInContract s.n0 (s.limbs .n 4) (s.limbs .a 4) (s.limbs .rr 4) = false ∧ 0 < bitLen (s.limbs .b 4) 4 ∧
    effL Config.clampLcount s.internals.lcount = some 4 := by decide +kernel

theorem test_hyp_FixedAndGenericEnginesAgree :
    toy4.internals.lcount = 4 ∧ kselLegal toy4.internals.ksel = true ∧ toy4.inFlight = false ∧
    modExpInContract toy4.n0 (toy4.limbs .n 4) (toy4.limbs .a 4) (toy4.limbs .rr 4) = true ∧
    (∃ p, exec .modexp4 toy4 = .next p) ∧ ∃ q, exec .modexpg toy4 = .next q :=
  ⟨by decide +kernel, by decide +kernel, by decide, by decide +kernel, ⟨_, rfl⟩, _, rfl⟩

theorem test_hyp_CommandFrame : commandMayWrite .bitlen 0x300 = false ∧ ∃ t, exec .bitlen toyM = .next t :=
  ⟨by decide, _, rfl⟩

/-- Boundary values of the three checks: LCOUNT = 0 and 1, KSEL = 2 and 0, an even and an odd modulus. -/
theorem test_hyp_ErrorCodesByPriority :
    (ready .montmul 0 2 0 [3232] [] [] []).internals.lcount.toNat = 0 ∧
    (ready .montmul 1 2 0 [3232] [] [] []).internals.lcount.toNat = 1 ∧
    (ready .montmul 0 2 0 [3232] [] [] []).internals.ksel.toNat = 2 ∧ toyM.internals.ksel.toNat = 0 ∧
    ((ready .montmul 0 2 0 [3232] [] [] []).limb .n 0).toNat % 2 = 0 ∧ (toyM.limb .n 0).toNat % 2 ≠ 0 ∧
    (State.reset.accept .illegal).busy = true ∧ (State.reset.accept .illegal).internals.op = .illegal := by
  decide +kernel

/-- ER-9: BAD_LCOUNT outranks EVEN_MODULUS. -/
theorem test_hyp_ErrorCompletionKeepsOutputs :
    toyM.busy = true ∧
    ∃ t, engineTurn (ready .montmul 0 0 0 [3232] [] [] []) = .next t ∧ t.errCode ≠ .none :=
  ⟨by decide, _, rfl, by decide +kernel⟩

theorem test_hyp_LimbsAboveLNeverMatter :
    limbCountOf Config.clampLcount (.instr .montmul) toyM.internals.lcount = some 1 ∧ 1 ≤ 15 ∧ 15 < 16 ∧
    BankId.a ≠ .res ∧ ∃ t, exec .montmul toyM = .next t ∧ t.errCode = .none :=
  ⟨by decide +kernel, by decide, by decide, by decide, _, rfl, by decide +kernel⟩

theorem test_hyp_UnwrittenOperandIsRecorded :
    limbCountOf Config.clampLcount (.instr .bitlen) (ready .bitlen 2 0 0 [] [] [] [1]).internals.lcount = some 2 ∧
    (ready .bitlen 2 0 0 [] [] [] [1]).isWritten .b 1 = false ∧
    ∃ t, exec .montmul toyM = .next t ∧ t.errCode = .none ∧ t.unwrittenOperand = false :=
  ⟨by decide +kernel, by decide +kernel, _, rfl, by decide +kernel, by decide +kernel⟩

theorem test_hyp_StepRunsLatchedCommand :
    toyM.busy = true ∧ toyM.internals.op = .instr .montmul ∧ toyM.engineNext = true ∧
    (toyM.withSchedule [.engine]).engineNext = true := by decide +kernel

theorem test_hyp_FetchedWordRunsNext :
    decodeTableWord 64 1 = some .montmul ∧ decodeTableWord 64 2 = some .bitlen ∧
    decodeTableWord 64 3 = some .modexp4 ∧ decodeTableWord 64 4 = some .modexpg ∧ decodeTableWord 64 0x13 = none := by
  decide

theorem test_hyp_CommandWriteIsAccepted : idleToy.busy = false := by decide

theorem test_hyp_InputsChangeOnlyByIdleHostWrites :
    (∃ t, step toyM = .next t) ∧ toyM.resetNext = false ∧ (toyM.busy = true ∨ toyM.engineNext = true) :=
  ⟨⟨_, rfl⟩, by decide, .inl (by decide)⟩

theorem test_hyp_OutputsChangeOnlyAtCompletionOrReset :
    let s := toyM.withSchedule [.write (Config.baseAddr + 0x010) (.bytes 8) 0x4]
    (∃ t, step s = .next t) ∧ s.resetNext = false ∧ ¬ (s.busy = true ∧ s.engineNext = true) :=
  ⟨⟨_, step_write toyM (by decide) _ _ _⟩, by decide, fun h => absurd h.2 (by decide)⟩

theorem test_hyp_HostAccessNeverEndsCommand :
    let s := toyM.withSchedule [.write (Config.baseAddr + 0x008) (.bytes 8) 0x3]
    (∃ t, step s = .next t) ∧ s.busy = true ∧ s.engineNext = false ∧ s.resetNext = false :=
  ⟨⟨_, step_write toyM (by decide) _ _ _⟩, by decide, by decide, by decide⟩

theorem test_hyp_WritesWhileBusyAreDropped : toyM.busy = true := by decide

theorem test_hyp_BusyEngineCompletes : (toyM.withSchedule [.engine, .reset]).schedule.all Event.inWindow = true ∧
    (toyM.withSchedule [.land 0, .engine]).schedule.all Event.inWindow = true ∧ toyM.busy = true ∧
    Event.reset ∉ (toyM.withSchedule [.land 0, .engine]).schedule := by decide

/-- An accepted MONTMUL meets the invariant, and has a next step. -/
theorem test_hyp_StepKeepsInvariant : toyM.Inv ∧ ∃ t, step toyM = .next t := by
  refine ⟨⟨fun _ => by decide, fun _ => by decide, fun _ l h => ?_, fun _ l k h hk => ?_, by decide, by decide,
    fun _ => rfl, by decide, by decide, .inr fun i _ => isWritten_reset_bank rfl i, by decide⟩, _, rfl⟩
  · have : toyM.internals.limbCount = (limbCountOf Config.clampLcount (.instr .montmul) 1).getD 0 := rfl
    rw [this]
    exact congrArg (fun o => Option.getD o 0) h
  · exact absurd hk (by simp [toyM, ready, widthOf])

theorem test_hyp_RegisterMap :
    (Target.limb .res 15).offset = some 0x378 ∧ Target.opCount.offset = some 0x038 ∧ 0xFF8 < 4096 ∧ 0xFF8 % 8 = 0 := by
  decide

theorem test_hyp_ReservedBitsReadZero : idleToy.busy = false ∧ 0x040 < 0x100 ∧ 0x380 ≤ 0xFFF ∧ 0xFFF < 4096 := by decide

theorem test_hyp_IdleWriteReadsBack : idleToy.busy = false ∧ BankId.b ≠ .res ∧ Target.id ≠ .limb .b 3 ∧
    Target.limb .b 3 ≠ .n0 ∧ Target.n0 ≠ .cfg := by decide

theorem test_hyp_UnwrittenLimbReads :
    idleToy.isWritten .n 1 = false ∧ idleToy.isWritten .n 0 = true := by decide +kernel

theorem test_hyp_ReadsHaveNoSideEffect : 0x378 < 4096 ∧ 0x378 % 8 = 0 ∧ targetAt 0x378 ≠ .reserved := by decide

theorem test_hyp_ReadOnlyWritesAreIgnored :
    0x038 ∈ [0x000, 0x028, 0x030, 0x038] ∧ (0x300 ≤ 0x378 ∧ 0x378 < 0x380 ∧ 0x378 % 8 = 0) := by decide

theorem test_hyp_BusErrorsHaveNoEffect :
    AccessSize.bytes 4 ≠ .bytes 8 ∧ AccessSize.burst 2 ≠ .bytes 8 ∧ 0x004 % 8 ≠ 0 ∧ (0x040 ≤ 0x0F8 ∧ 0x0F8 < 0x100) ∧
    0x380 ≤ 0xFF8 ∧ 0xFF8 < 4096 := by decide

theorem test_hyp_AccessOutsideWindowFaults :
    Config.baseAddr + 4096 < Config.baseAddr ∨ Config.baseAddr + 4096 ≤ Config.baseAddr + 4096 := .inr (Nat.le_refl _)

theorem test_hyp_InterruptFollowsDone :
    (0x2 : Word).getLsbD 1 = true ∧ (0x4 : Word).getLsbD 1 = false ∧ idleToy.busy = false ∧
    (0xFFFF : Word).getLsbD 16 = false := by decide

theorem test_hyp_OperandWritesInFlight :
    let late : PostedWrite := { off := 0x280, size := .bytes 8, data := 7 }
    let cmd : PostedWrite := { off := 0x008, size := .bytes 8, data := 1 }
    idleToy.busy = false ∧ (idleToy.withFabric [late, cmd]).fabric = [late] ++ cmd :: [] ∧ lateM.busy = true ∧
    lateM.fabric[0]? = some late ∧ late.isOperand = true := by decide

theorem test_hyp_LdvLoadsLimbVector : BankId.n ≠ .res ∧ 16 ≤ 16 ∧ idleToy.busy = false := by decide

end Sys2Proof.Tests
end

section
/-! PROOFS. The bounds of the scan's counters (spec/42_modexp.md R178), from one accounting lemma per part of the driver. -/

namespace Sys2Proof.Machine

/-! ### Bit lengths and windows -/

/-- A bit length is at most the number of bits scanned (R140). -/
theorem bitLen_le (e : Limbs) (l : Nat) : bitLen e l ≤ 64 * l := by
  induction l with
  | zero => rfl
  | succ li ih =>
    simp only [bitLen]
    split
    case isTrue hw =>
      have hne : (limbAt e li).toNat ≠ 0 := fun h => hw (BitVec.eq_of_toNat_eq h)
      have hlog := (Nat.log2_lt hne).2 (limbAt e li).isLt
      omega
    case isFalse => omega

/-- The bit just below the bit length is 1 (R140). -/
theorem bitAt_bitLen_pred {e : Limbs} {l : Nat} (h : 0 < bitLen e l) : bitAt e (bitLen e l - 1) = true := by
  induction l with
  | zero => simp [bitLen] at h
  | succ li ih =>
    simp only [bitLen] at h ⊢
    split
    case isTrue hw =>
      have hne : (limbAt e li).toNat ≠ 0 := fun h => hw (BitVec.eq_of_toNat_eq h)
      have hlog := (Nat.log2_lt hne).2 (limbAt e li).isLt
      have hlimb : (64 * li + (limbAt e li).toNat.log2) / 64 = li := by omega
      have hbit : (64 * li + (limbAt e li).toNat.log2) % 64 = (limbAt e li).toNat.log2 := by omega
      rw [Nat.add_sub_cancel, bitAt, hlimb, hbit]
      exact Nat.testBit_log2 hne
    case isFalse hw =>
      rw [if_neg hw] at h
      exact ih h

/-- The top bit of a window is the exponent's bit at the window's position (R165). -/
theorem extractWindow_testBit_top (e : Limbs) (pos : Nat) {len : Nat} (h : 0 < len) :
    (extractWindow e pos len).testBit (len - 1) = bitAt e pos := by
  unfold extractWindow bitAt
  simp only
  split
  case isTrue hone =>
    have hbit : pos % 64 + 1 - len + (len - 1) = pos % 64 := by omega
    simp [Nat.testBit_mod_two_pow, Nat.testBit_shiftRight, h, hbit, BitVec.getLsbD]
  case isFalse hstraddle =>
    have hlow : (limbAt e (pos / 64 - 1)).toNat >>> (64 - (len - (pos % 64 + 1))) < 2 ^ (len - (pos % 64 + 1)) := by
      rw [Nat.shiftRight_eq_div_pow]
      refine Nat.div_lt_of_lt_mul ((limbAt e (pos / 64 - 1)).isLt.trans_le ?_)
      rw [← pow_add]
      exact Nat.pow_le_pow_right (by decide) (by omega)
    have hnot : ¬ len - 1 < len - (pos % 64 + 1) := by omega
    have hbit : len - 1 - (len - (pos % 64 + 1)) = pos % 64 := by omega
    rw [Nat.mul_comm, Nat.testBit_two_pow_mul_add _ hlow, if_neg hnot, hbit]
    simp [Nat.testBit_mod_two_pow, BitVec.getLsbD]

/-- A window value whose top bit is 1 keeps at least that bit when its trailing zeros are stripped (R166, R171 (a)). -/
theorem normalizeWindow_pos {len w : Nat} (h : 0 < len) (hw : w.testBit (len - 1) = true) :
    0 < (normalizeWindow len w).2 := by
  induction len generalizing w with
  | zero => omega
  | succ len ih =>
    simp only [normalizeWindow]
    split
    case isTrue heven =>
      cases len with
      | zero => simp [Nat.testBit_zero, heven] at hw
      | succ n => exact ih n.succ_pos (by rwa [Nat.add_sub_cancel, Nat.testBit_add_one] at hw)
    case isFalse => exact len.succ_pos

/-- A window owes at most its length in squarings (R166). -/
theorem normalizeWindow_le (len w : Nat) : (normalizeWindow len w).2 ≤ len := by
  induction len generalizing w with
  | zero => rfl
  | succ len ih =>
    simp only [normalizeWindow]
    split
    · exact (ih _).trans len.le_succ
    · rfl

/-- No window owes more squarings than bits are left (R165, R166). -/
theorem windowAt_nSq_le (e : Limbs) (k pos : Nat) : (windowAt e k pos).nSq ≤ pos + 1 :=
  (normalizeWindow_le _ _).trans (Nat.min_le_right _ _)

/-- The window at a 1 bit owes at least one squaring (R171 (a)). -/
theorem windowAt_nSq_pos {e : Limbs} {k pos : Nat} (hk : 0 < k) (h : bitAt e pos = true) :
    0 < (windowAt e k pos).nSq := by
  have hlen : 0 < min k (pos + 1) := by omega
  exact normalizeWindow_pos hlen ((extractWindow_testBit_top e pos hlen).trans h)

/-! ### The counters -/

section
variable (mul : Limbs → Limbs → Limbs) (tbl : List Limbs) (e : Limbs) (k : Nat)

/-- Coasting pays one squaring for each bit it passes (R169). -/
theorem coast_counts (left : Nat) (d : Scan) :
    (coast mul e left d).sqr + (coast mul e left d).left = d.sqr + left ∧
    (coast mul e left d).mul = d.mul ∧ (coast mul e left d).isId = d.isId := by
  induction left generalizing d with
  | zero => simp [coast]
  | succ pos ih =>
    simp only [coast]
    split
    · simp
    · obtain ⟨hsqr, hmul, hid⟩ := ih { d with x := mul d.x d.x, sqr := d.sqr + 1 }
      exact ⟨by simp only at hsqr; omega, hmul, hid⟩

/-- Once the accumulator is no longer the identity, a round pays one squaring for each bit it consumes, and one
multiplication (R167 to R169). -/
theorem scanRound_counts {d : Scan} (hid : d.isId = false) (hleft : 0 < d.left) :
    (scanRound mul tbl e k d).sqr + (scanRound mul tbl e k d).left = d.sqr + d.left ∧
    (scanRound mul tbl e k d).mul = d.mul + 1 ∧ (scanRound mul tbl e k d).isId = false := by
  have hwin := windowAt_nSq_le e k (d.left - 1)
  simp only [scanRound, applyWindow, hid, Bool.false_eq_true, if_false, coast_counts, and_true]
  omega

/-- The first round takes its window from the table: it pays no squaring for its bits and no multiplication (R168). -/
theorem scanRound_counts_first {d : Scan} (hid : d.isId = true) (hleft : 0 < d.left) :
    (scanRound mul tbl e k d).sqr + (scanRound mul tbl e k d).left + (windowAt e k (d.left - 1)).nSq
      = d.sqr + d.left ∧
    (scanRound mul tbl e k d).mul = d.mul ∧ (scanRound mul tbl e k d).isId = false := by
  have hwin := windowAt_nSq_le e k (d.left - 1)
  simp only [scanRound, applyWindow, hid, if_true, coast_counts, and_true]
  omega

/-- The scan pays one squaring for each bit it consumes, and at most one multiplication a round (R170). -/
theorem scanLoop_counts (fuel : Nat) {d : Scan} (hid : d.isId = false) :
    (scanLoop mul tbl e k fuel d).sqr + (scanLoop mul tbl e k fuel d).left = d.sqr + d.left ∧
    (scanLoop mul tbl e k fuel d).mul ≤ d.mul + fuel := by
  induction fuel generalizing d with
  | zero => simp [scanLoop]
  | succ fuel ih =>
    simp only [scanLoop]
    split
    case isTrue => simp
    case isFalse hleft =>
      obtain ⟨hsqr, hmul, hid'⟩ := scanRound_counts mul tbl e k hid (Nat.pos_of_ne_zero hleft)
      obtain ⟨hloopSqr, hloopMul⟩ := ih hid'
      omega

/-- A scan that starts at the identity and at a 1 bit pays fewer squarings than it has bits, and fewer multiplications:
its first window comes from the table (R168). -/
theorem scanLoop_counts_le {d : Scan} (hk : 0 < k) (hid : d.isId = true) (hleft : 0 < d.left)
    (hbit : bitAt e (d.left - 1) = true) :
    (scanLoop mul tbl e k d.left d).sqr + 1 ≤ d.sqr + d.left ∧
    (scanLoop mul tbl e k d.left d).mul + 1 ≤ d.mul + d.left := by
  obtain ⟨fuel, hfuel⟩ : ∃ fuel, d.left = fuel + 1 := ⟨d.left - 1, by omega⟩
  have hpos := windowAt_nSq_pos hk hbit
  obtain ⟨hsqr, hmul, hid'⟩ := scanRound_counts_first mul tbl e k hid hleft
  obtain ⟨hloopSqr, hloopMul⟩ := scanLoop_counts mul tbl e k fuel hid'
  have hstep : scanLoop mul tbl e k d.left d = scanLoop mul tbl e k fuel (scanRound mul tbl e k d) := by
    conv_lhs => rw [hfuel]
    exact if_neg hleft.ne'
  rw [hstep]
  omega

end

/-- Building the table takes at most one squaring and 15 multiplications, and no squaring for k = 1 (R162). -/
theorem buildTable_counts (mul : Limbs → Limbs → Limbs) (baseMont : Limbs) {k : Nat} (hk : k ∈ [1, 3, 4, 5]) :
    (buildTable mul baseMont k).2.1 ≤ 1 ∧ (buildTable mul baseMont k).2.2 ≤ 15 := by
  simp only [List.mem_cons, List.not_mem_nil, or_false] at hk
  rcases hk with rfl | rfl | rfl | rfl <;> simp [buildTable]

/-- The largest counters of an exponentiation of at most 16 limbs (R178). -/
theorem modExp_counts_le (n0 : Word) (n base e rr : Limbs) {k : Nat} (hk : k ∈ [1, 3, 4, 5]) (hn : n.length ≤ 16) :
    (modExp n0 n base e rr k).sqr ≤ 1024 ∧ (modExp n0 n base e rr k).mul ≤ 1 + 15 + 1024 + 1 := by
  have hlen := bitLen_le e n.length
  have hkpos : 0 < k := by fin_cases hk <;> decide
  unfold modExp
  simp only
  split
  case isTrue => simp
  case isFalse hE =>
    obtain ⟨htblSqr, htblMul⟩ := buildTable_counts (mm n0 n) (mm n0 n base rr) hk
    obtain ⟨hsqr, hmul⟩ := scanLoop_counts_le (mm n0 n) (buildTable (mm n0 n) (mm n0 n base rr) k).1 e k
      (d := { x := [], isId := true, left := bitLen e n.length,
              sqr := (buildTable (mm n0 n) (mm n0 n base rr) k).2.1,
              mul := 1 + (buildTable (mm n0 n) (mm n0 n base rr) k).2.2 })
      hkpos rfl (Nat.pos_of_ne_zero hE) (bitAt_bitLen_pred (Nat.pos_of_ne_zero hE))
    simp only at hsqr hmul ⊢
    omega

end Sys2Proof.Machine
end

section
/-! PROOFS. Every step keeps the invariant of the machine. The invariant is split into what it says of the outputs and
what it says of a running command, so that an event has to answer only for the part it touches. -/

namespace Sys2Proof.Machine

/-! ### The two parts of the invariant -/

/-- What the invariant says of the output registers and RES: it depends on `State.outputs` alone. -/
structure State.OutputsOk (s : State) : Prop where
  expBitsRange : s.expBits.toNat ≤ 1024
  winKRange : s.winK ∈ [0, 1, 3, 4, 5]
  winKZero : s.winK = 0 → s.expBits = 0
  sqrRange : s.sqr.toNat ≤ 1024
  mulRange : s.mul.toNat ≤ 1 + 15 + 1024 + 1
  resWhole : (∀ i, i < 16 → s.isWritten .res i = true) ∨ (∀ i, i < 16 → s.isWritten .res i = false)

theorem State.Inv.outputsOk {s : State} (h : s.Inv) : s.OutputsOk :=
  ⟨h.expBitsRange, h.winKRange, h.winKZero, h.sqrRange, h.mulRange, h.resWhole⟩

theorem State.OutputsOk.congr {s t : State} (h : s.OutputsOk) (ht : t.outputs = s.outputs) : t.OutputsOk := by
  simp only [State.outputs, Prod.mk.injEq] at ht
  obtain ⟨hres, hexp, hwin, hsqr, hmul⟩ := ht
  have hwritten : ∀ i, t.isWritten .res i = s.isWritten .res i := isWritten_congr hres
  obtain ⟨h1, h2, h3, h4, h5, h6⟩ := h
  exact ⟨by rwa [hexp], by rwa [hwin], by rwa [hexp, hwin], by rwa [hsqr], by rwa [hmul], by simpa only [hwritten]⟩

/-- With no command running the invariant is about the outputs alone. -/
theorem State.Inv.of_idle {s : State} (hidle : s.busy = false) (hmark : s.inFlight = false) (h : s.OutputsOk) :
    s.Inv where
  busyClears hb := by simp [hidle] at hb
  latched hb := by simp [hidle] at hb
  limbCount hb := by simp [hidle] at hb
  width hb := by simp [hidle] at hb
  expBitsRange := h.expBitsRange
  winKRange := h.winKRange
  winKZero := h.winKZero
  sqrRange := h.sqrRange
  mulRange := h.mulRange
  resWhole := h.resWhole
  inFlightBusy hm := by simp [hmark] at hm

/-- An idle engine carries no mark of R246. -/
theorem State.Inv.inFlight_of_idle {s : State} (h : s.Inv) (hidle : s.busy = false) : s.inFlight = false := by
  cases hm : s.inFlight
  · rfl
  · exact absurd (h.inFlightBusy hm) (by simp [hidle])

/-- What the invariant says of a running command, DONE apart, depends on these fields alone. -/
def State.runningView (s : State) : Phase × ErrorCode × Internals × BitVec 5 × BitVec 4 × Bank × Nat × Bool :=
  (s.phase, s.errCode, s.internals, s.lcount, s.ksel, s.bankB, s.epoch, s.inFlight)

/-- A change that leaves the running command and the outputs, and does not set DONE, keeps the invariant. -/
theorem State.Inv.congr {s t : State} (h : s.Inv) (hrun : t.runningView = s.runningView)
    (hout : t.outputs = s.outputs) (hdone : t.done = true → s.done = true) : t.Inv := by
  simp only [State.runningView, Prod.mk.injEq] at hrun
  obtain ⟨hphase, herr, hint, hlc, hks, hbank, hepoch, hmark⟩ := hrun
  have hbusy : t.busy = s.busy := by simp [State.busy, hphase]
  have hlimbs : ∀ l, t.limbs .b l = s.limbs .b l := limbs_congr hbank hepoch
  obtain ⟨h1, h2, h3, h4, h5, h6⟩ := h.outputsOk.congr hout
  refine ⟨fun hb => ?_, ?_, ?_, ?_, h1, h2, h3, h4, h5, h6, ?_⟩
  · obtain ⟨hd, he⟩ := h.busyClears (hbusy ▸ hb)
    exact ⟨Bool.eq_false_iff.2 fun ht => Bool.eq_false_iff.1 hd (hdone ht), herr.trans he⟩
  · simpa only [hbusy, hint, hlc, hks] using h.latched
  · simpa only [hbusy, hint, hlc] using h.limbCount
  · simpa only [hbusy, hint, hlc, hks, hlimbs] using h.width
  · simpa only [hbusy, hmark] using h.inFlightBusy

/-! ### Host accesses and the reset input -/

/-- Acceptance latches what the invariant asks for (R240, R41). -/
theorem State.Inv.accept {s : State} (h : s.Inv) (d : Decoded) : (s.accept d).Inv := by
  have hlimbs : ∀ l, (s.accept d).limbs .b l = s.limbs .b l := limbs_congr (by simp) (by simp)
  obtain ⟨h1, h2, h3, h4, h5, h6⟩ := h.outputsOk.congr (t := s.accept d) (by simp [State.outputs])
  refine ⟨by simp, by simp, fun _ l hl => ?_, fun _ l k hl hk => ?_, h1, h2, h3, h4, h5, h6, by simp⟩
  · simp only [accept_fields] at hl
    simp [State.accept, hl]
  · simp only [accept_fields, hlimbs] at hl hk
    simp [State.accept, hl, hk]

/-- Writing a limb leaves the outputs of a command, unless the limb is of RES. -/
theorem outputs_setLimb (s : State) {bk : BankId} (hres : bk ≠ .res) (i : Nat) (v : Word) :
    (s.setLimb bk i v).outputs = s.outputs := by
  cases bk
  case res => exact absurd rfl hres
  all_goals rfl

/-- A write of a target keeps the invariant. -/
theorem State.Inv.writeTarget {s : State} (h : s.Inv) (t : Target) (v : Word) : (s.writeTarget t v).Inv := by
  rcases writeTarget_cases s t v with hw | ⟨_, hw⟩ | ⟨_, hw⟩ | ⟨hidle, hw⟩ 
  · rwa [hw]
  · rw [hw]; exact h.congr rfl rfl id
  · rw [hw]; exact h.congr rfl rfl (by simp +contextual)
  · have hmark := h.inFlight_of_idle hidle
    rcases hw with ⟨_, hw⟩ | ⟨_, hw⟩ | ⟨_, hw⟩ | ⟨bk, i, hres, _, hw⟩ <;> rw [hw]
    · exact h.accept _
    · exact .of_idle hidle hmark (h.outputsOk.congr rfl)
    · exact .of_idle hidle hmark (h.outputsOk.congr rfl)
    · exact .of_idle (by simpa using hidle) (by simpa [State.setLimb] using hmark)
        (h.outputsOk.congr (outputs_setLimb s hres i.val v))

/-- A host write at an offset keeps the invariant. -/
theorem State.Inv.writeAt {s : State} (h : s.Inv) (off : Nat) (size : AccessSize) (v : Word) :
    (s.writeAt off size v).Inv := by
  rcases writeAt_cases off size v s with ⟨_, hw⟩ | ⟨_, hw⟩ <;> rw [hw]
  · exact h.congr rfl rfl id
  · exact (h.writeTarget _ v).congr rfl rfl id

/-- A host read at an offset keeps the invariant. -/
theorem State.Inv.readAt {s : State} (h : s.Inv) (off : Nat) (size : AccessSize) : (s.readAt off size).Inv := by
  rcases readAt_cases off size s with ⟨_, hr⟩ | ⟨_, hr⟩ <;> rw [hr] <;> exact h.congr rfl rfl id

/-- A landing write keeps the invariant. -/
theorem State.Inv.land {s : State} (h : s.Inv) (i : Nat) : (s.land i).Inv := by
  rcases land_cases i s with ⟨_, hl⟩ | ⟨w, _, hl⟩ <;> rw [hl]
  · exact h
  · have htaken : (s.withFabric (s.fabric.take i)).Inv := h.congr rfl rfl id
    exact (htaken.writeAt w.off w.size w.data).congr rfl rfl id

/-- The reset input leads to the invariant from every state. -/
theorem inv_resetInput (s : State) : s.resetInput.Inv :=
  .of_idle (by simp) (by simp)
    ⟨by simp, by simp, by simp, by simp, by simp, .inr fun i _ => isWritten_reset_bank (by simp) i⟩

/-! ### Completion -/

/-- A completion is an idle state, so the outputs alone count. -/
theorem State.OutputsOk.finish {s : State} (h : s.OutputsOk) (c : ErrorCode) : (s.finish c).Inv :=
  .of_idle (by simp) (by simp) (h.congr rfl)

/-- A successful completion keeps the invariant where the outputs it writes keep to their ranges. -/
theorem withOutputs_finish_inv {f : Bool} {res : Bank} {e : BitVec 11} {k : BitVec 3} {q m : BitVec 32} (s : State)
    (he : e.toNat ≤ 1024) (hk : k ∈ [0, 1, 3, 4, 5]) (hzero : k = 0 → e = 0) (hq : q.toNat ≤ 1024)
    (hm : m.toNat ≤ 1 + 15 + 1024 + 1) (hres : (∃ r, res = Bank.ofResult r) ∨ s.OutputsOk ∧ res = s.bankRes) :
    ((s.withOutputs f res e k q m).finish .none).Inv := by
  refine State.OutputsOk.finish ⟨he, hk, hzero, hq, hm, ?_⟩ _
  rcases hres with ⟨r, rfl⟩ | ⟨hok, rfl⟩
  · exact .inl fun i hi => isWritten_of_bankRes rfl hi
  · exact hok.resWhole

/-- The EXPBITS of a scan of at most 16 limbs (R27). -/
theorem expBits_range (e : Limbs) {l : Nat} (hl : l ≤ 16) : (BitVec.ofNat 11 (bitLen e l)).toNat ≤ 1024 := by
  have h := bitLen_le e l
  have hmod := Nat.mod_le (bitLen e l) (2 ^ 11)
  rw [BitVec.toNat_ofNat]
  omega

/-- The WINK of a legal window width is that width, and not 0 (R28). -/
theorem winK_range {k : Nat} (hk : k ∈ [1, 3, 4, 5]) :
    BitVec.ofNat 3 k ∈ [0, 1, 3, 4, 5] ∧ BitVec.ofNat 3 k ≠ 0 := by
  fin_cases hk <;> decide

/-- The outputs of an exponentiation keep to their ranges (R178). -/
theorem modexpFinish_inv (site : Config.DrawSite) {l k : Nat} (hl : l ≤ 16) (hk : k ∈ [1, 3, 4, 5]) (s : State) :
    (modexpFinish site l k s).Inv := by
  obtain ⟨f, hf⟩ := modexpFinish_eq site l k s
  obtain ⟨hwin, hne⟩ := winK_range hk
  obtain ⟨hsqr, hmul⟩ := modExp_counts_le s.n0 (s.limbs .n l) (s.limbs .a l) (s.limbs .b l) (s.limbs .rr l) hk
    (by simpa using hl)
  rw [hf]
  exact withOutputs_finish_inv s (expBits_range _ hl) hwin (fun h => absurd h hne) ((Nat.mod_le _ _).trans hsqr)
    ((Nat.mod_le _ _).trans hmul) (.inl ⟨_, rfl⟩)

/-- Every command's completion keeps the invariant. -/
theorem State.Inv.exec {s t : State} (h : s.Inv) {i : Instr} (ht : exec i s = .next t) : t.Inv := by
  have herror : ∀ f c, ((s.record f).finish c).Inv := fun f c => (h.outputsOk.congr (t := s.record f) rfl).finish c
  cases i with
  | montmul =>
    cases ht
    rcases montmulStep_cases s with ⟨f, c, _, hs⟩ | ⟨f, l, _, _, hs⟩ <;> rw [hs]
    · exact herror f c
    · exact withOutputs_finish_inv s h.expBitsRange h.winKRange h.winKZero (by decide) (by decide) (.inl ⟨_, rfl⟩)
  | bitlen =>
    cases ht
    rcases bitlenStep_cases s with ⟨f, c, _, hs⟩ | ⟨f, l, k, hl, hk, hs⟩ <;> rw [hs]
    · exact herror f c
    · obtain ⟨hwin, hne⟩ := winK_range (effK_range hk)
      exact withOutputs_finish_inv s (expBits_range _ (effL_range hl).2) hwin (fun h => absurd h hne) (by decide)
        (by decide) (.inr ⟨h.outputsOk, rfl⟩)
  | modexp4 =>
    cases ht
    rcases modexp4Step_cases s with ⟨f, c, _, hs⟩ | ⟨k, hk, _, hs⟩ <;> rw [hs]
    · exact herror f c
    · exact modexpFinish_inv _ (by decide) (effK_range hk) s
  | modexpg =>
    cases ht
    rcases modexpgStep_cases s with ⟨f, c, _, hs⟩ | ⟨l, hl, _, hs⟩ <;> rw [hs]
    · exact herror f c
    · exact modexpFinish_inv _ (effL_range hl).2 (by decide) s

/-! ### The step -/

/-- The engine's turn keeps the invariant. -/
theorem State.Inv.engineTurn {s t : State} (h : s.Inv) (ht : engineTurn s = .next t) : t.Inv := by
  rcases engineTurn_cases s with ⟨_, he⟩ | ⟨_, i, _, he⟩ | ⟨_, _, he⟩ <;> rw [he] at ht
  · cases ht; exact h
  · exact h.exec ht
  · cases ht; exact h.outputsOk.finish _

/-- Settles O46: each event of the total order keeps the invariant. -/
theorem stepKeepsInvariant : Obligations.StepKeepsInvariant := by
  intro s t h hstep
  have hsched : ∀ rest, (s.withSchedule rest).Inv := fun rest => h.congr rfl rfl id
  rcases step_cases hstep with ⟨_, ht⟩ | ⟨_, size, rest, off, _, _, _, rfl⟩ | ⟨_, size, v, rest, off, _, _, _, rfl⟩ |
    ⟨rest, _, rfl⟩ | ⟨_, size, v, rest, off, _, _, _, rfl⟩ | ⟨i, rest, _, rfl⟩
  · exact (hsched _).engineTurn ht
  · exact (hsched rest).readAt off size
  · exact (hsched rest).writeAt off size v
  · exact inv_resetInput _
  · exact (hsched rest).congr rfl rfl id
  · exact (hsched rest).land i

end Sys2Proof.Machine
end

section
/-! PROOFS. What a command of width L reads and writes (spec/10_state.md R31, R33). -/

namespace Sys2Proof.Machine

/-! ### What a command of width L reads -/

/-- Two states that a command of width `l` cannot tell apart: everything it reads, and its outputs so far. Which limbs
are written is left out, as that only reaches the recorded model fault (R33). -/
structure State.AgreeAt (l : Nat) (s t : State) : Prop where
  n0 : t.n0 = s.n0
  internals : t.internals = s.internals
  draws : t.draws = s.draws
  inFlight : t.inFlight = s.inFlight
  outputs : t.outputs = s.outputs
  limbs : ∀ bk, bk ≠ .res → t.limbs bk l = s.limbs bk l

/-- The first limbs of a bank depend on those limbs alone. -/
theorem limbs_congr_below {s t : State} {bk : BankId} {l : Nat} (h : ∀ i, i < l → t.limb bk i = s.limb bk i) :
    t.limbs bk l = s.limbs bk l :=
  List.map_congr_left fun i hi => h i (List.mem_range.1 hi)

/-- Writing a limb from `l` up of an input bank is not seen at width `l` (R31). -/
theorem agreeAt_setLimb (s : State) {bk : BankId} (hres : bk ≠ .res) {l j : Nat} (hj : l ≤ j) (v : Word) :
    State.AgreeAt l s (s.setLimb bk j v) where
  n0 := by simp [State.setLimb]
  internals := by simp [State.setLimb]
  draws := by simp [State.setLimb]
  inFlight := by simp [State.setLimb]
  outputs := outputs_setLimb s hres j v
  limbs _ _ := limbs_congr_below fun i hi => limb_setLimb_other s (.inr (by omega)) v

section
variable {s t : State} {l : Nat} (h : State.AgreeAt l s t)
include h

theorem State.AgreeAt.modulusEven (hl : 1 ≤ l) : t.modulusEven = s.modulusEven := by
  have hlimb : t.limb .n 0 = s.limb .n 0 := by
    rw [← limbAt_limbs t .n hl, ← limbAt_limbs s .n hl, h.limbs .n (by decide)]
  rw [State.modulusEven, State.modulusEven, hlimb]

theorem State.AgreeAt.output_fields : t.bankRes = s.bankRes ∧ t.expBits = s.expBits ∧ t.winK = s.winK := by
  have hout := h.outputs
  simp only [State.outputs, Prod.mk.injEq] at hout
  exact ⟨hout.1, hout.2.1, hout.2.2.1⟩

theorem State.AgreeAt.montmulResult : montmulResult l t = montmulResult l s := by
  simp [Machine.montmulResult, h.n0, h.inFlight, h.draws, h.limbs]

theorem State.AgreeAt.modexpRun (k : Nat) : modexpRun l k t = modexpRun l k s := by
  simp [Machine.modexpRun, h.n0, h.limbs]

theorem State.AgreeAt.modexpResult (site : Config.DrawSite) (k : Nat) :
    modexpResult site l k t = modexpResult site l k s := by
  simp [Machine.modexpResult, h.n0, h.inFlight, h.draws, h.limbs, h.modexpRun]

theorem State.AgreeAt.modexpFinish (site : Config.DrawSite) (k : Nat) :
    (modexpFinish site l k s).outputs = (modexpFinish site l k t).outputs ∧
    (modexpFinish site l k s).errCode = (modexpFinish site l k t).errCode := by
  obtain ⟨f, hf⟩ := modexpFinish_eq site l k s
  obtain ⟨g, hg⟩ := modexpFinish_eq site l k t
  rw [hf, hg, h.modexpRun, h.modexpResult, h.limbs .b (by decide)]
  exact ⟨rfl, rfl⟩

/-- A command of width `l` gives equal outputs and codes in two states that agree at `l`. -/
theorem State.AgreeAt.exec {i : Instr}
    (hl : limbCountOf Config.clampLcount (.instr i) s.internals.lcount = some l) :
    ∃ p q, exec i s = .next p ∧ exec i t = .next q ∧ p.outputs = q.outputs ∧ p.errCode = q.errCode := by
  cases i with
  | montmul =>
    refine ⟨_, _, rfl, rfl, ?_⟩
    have hl : effL Config.clampLcount s.internals.lcount = some l := hl
    simp only [montmulStep, h.internals, hl, h.modulusEven (effL_range hl).1]
    split
    case isTrue => exact ⟨h.outputs.symm, rfl⟩
    case isFalse => exact ⟨by simp [State.outputs, h.montmulResult, h.output_fields], by simp⟩
  | bitlen =>
    refine ⟨_, _, rfl, rfl, ?_⟩
    have hl : effL Config.clampLcount s.internals.lcount = some l := hl
    simp only [bitlenStep, h.internals, hl, h.limbs .b (by decide)]
    split
    case h_1 => exact ⟨h.outputs.symm, rfl⟩
    case h_2 => exact ⟨by simp [State.outputs, h.output_fields], by simp⟩
  | modexp4 =>
    refine ⟨_, _, rfl, rfl, ?_⟩
    obtain rfl : 4 = l := Option.some.inj hl
    simp only [modexp4Step, h.internals, h.limbs .b (by decide), h.modulusEven (by decide)]
    split
    case h_1 => exact ⟨h.outputs.symm, rfl⟩
    case h_2 k _ =>
      split
      case isTrue => exact ⟨h.outputs.symm, rfl⟩
      case isFalse => exact h.modexpFinish _ k
  | modexpg =>
    refine ⟨_, _, rfl, rfl, ?_⟩
    have hl : effL Config.clampLcount s.internals.lcount = some l := hl
    simp only [modexpgStep, h.internals, hl, h.modulusEven (effL_range hl).1]
    split
    case isTrue => exact ⟨h.outputs.symm, rfl⟩
    case isFalse => exact h.modexpFinish _ 1

end

/-! ### RES after a command -/

/-- The result of MONTMUL has the width of the product. -/
theorem montmulResult_length {l : Nat} (hl : 1 ≤ l) (s : State) : (montmulResult l s).length = l := by
  simp only [montmulResult]
  split
  · simpa using mm_length s.n0 (s.limbs .a l) (b := s.limbs .b l) (n := s.limbs .n l) (by simp) (by rwa [limbs_length])
  · simp

/-- The result of an exponentiation has the width of the modulus. -/
theorem modExp_length (n0 : Word) {n : Limbs} (hn : 0 < n.length) (base e rr : Limbs) (k : Nat) :
    (modExp n0 n base e rr k).r.length = n.length := by
  simp only [modExp]
  split
  · exact vecL_length _ _
  · exact mm_length n0 _ (vecL_length _ _) hn

theorem modexpResult_length {l : Nat} (hl : 1 ≤ l) (site : Config.DrawSite) (k : Nat) (s : State) :
    (modexpResult site l k s).length = l := by
  simp only [modexpResult]
  split
  · simpa [modexpRun] using modExp_length s.n0 (n := s.limbs .n l) (by rwa [limbs_length]) _ _ _ k
  · simp

/-- RES holds a result of width `l`: every limb is written, and those from `l` up are 0 (R31). -/
theorem res_whole {t : State} {r : Limbs} {l : Nat} (ht : t.bankRes = Bank.ofResult r) (hr : r.length = l) :
    (∀ j, j < 16 → t.isWritten .res j = true) ∧ (∀ j, l ≤ j → j < 16 → t.limb .res j = 0) := by
  refine ⟨fun j hj => isWritten_of_bankRes ht hj, fun j hl hj => ?_⟩
  rw [limb_of_bankRes ht hj, limbAt, List.getD_eq_default _ _ (hr.trans_le hl)]

/-- A command other than BITLEN that completes without an error writes a result of its width to RES. -/
theorem exec_bankRes {i : Instr} {s t : State} {l : Nat}
    (hl : limbCountOf Config.clampLcount (.instr i) s.internals.lcount = some l) (hi : i ≠ .bitlen)
    (ht : exec i s = .next t) (hok : t.errCode = .none) :
    ∃ r : Limbs, t.bankRes = Bank.ofResult r ∧ r.length = l := by
  have herror : ∀ f c, c ≠ ErrorCode.none → t ≠ (s.record f).finish c := by
    rintro f c hc rfl
    exact hc hok
  cases i with
  | bitlen => exact absurd rfl hi
  | montmul =>
    cases ht
    rcases montmulStep_cases s with ⟨f, c, hc, hs⟩ | ⟨f, l', hl', _, hs⟩
    · exact absurd hs (herror f c hc)
    · obtain rfl : l' = l := Option.some.inj (hl'.symm.trans hl)
      exact ⟨_, by rw [hs]; rfl, montmulResult_length (effL_range hl').1 s⟩
  | modexp4 =>
    cases ht
    obtain rfl : 4 = l := Option.some.inj hl
    rcases modexp4Step_cases s with ⟨f, c, hc, hs⟩ | ⟨k, _, _, hs⟩
    · exact absurd hs (herror f c hc)
    · exact ⟨_, by rw [hs]; rfl, modexpResult_length (by decide) .modexp4 k s⟩
  | modexpg =>
    cases ht
    rcases modexpgStep_cases s with ⟨f, c, hc, hs⟩ | ⟨l', hl', _, hs⟩
    · exact absurd hs (herror f c hc)
    · obtain rfl : l' = l := Option.some.inj (hl'.symm.trans hl)
      exact ⟨_, by rw [hs]; rfl, modexpResult_length (effL_range hl').1 .modexpg 1 s⟩

/-- BITLEN leaves RES as it was (R145). -/
theorem exec_bitlen_bankRes {s t : State} (ht : exec .bitlen s = .next t) : t.bankRes = s.bankRes := by
  cases ht
  rcases bitlenStep_cases s with ⟨f, c, _, hs⟩ | ⟨f, l, k, _, _, hs⟩ <;> rw [hs] <;> rfl

/-- Settles O33: states that differ only in limbs from L up agree on all a command reads. -/
theorem limbsAboveLNeverMatter : Obligations.LimbsAboveLNeverMatter := by
  intro i s l hl
  refine ⟨fun bk j v hj _ hres => (agreeAt_setLimb s hres hj v).exec hl, ?_⟩
  obtain ⟨f, c, res, e, k, q, m, ht, _⟩ := exec_shape i s
  refine ⟨_, ht, fun hi hok => ?_, ?_⟩
  · obtain ⟨r, hres, hlen⟩ := exec_bankRes hl hi ht hok
    exact res_whole hres hlen
  · rintro rfl
    exact exec_bitlen_bankRes ht

/-! ### The record of unwritten operands -/

/-- Noting reads leaves the written marks. -/
theorem isWritten_noteReads (bk ck : BankId) (l i : Nat) (s : State) :
    (s.noteReads bk l).isWritten ck i = s.isWritten ck i :=
  isWritten_congr (by cases ck <;> rfl) i

/-- Noting the reads of one bank records exactly its unwritten limbs (R33). -/
theorem noteReads_unwrittenOperand (bk : BankId) (l : Nat) (s : State) :
    (s.noteReads bk l).unwrittenOperand = true ↔
      s.unwrittenOperand = true ∨ ∃ j, j < l ∧ s.isWritten bk j = false := by
  simp [State.noteReads]

/-- Note the reads of limbs 0 to l-1 of several banks, as a command does after its checks. -/
def State.noteAllReads (bks : List BankId) (l : Nat) (s : State) : State := bks.foldl (fun s bk => s.noteReads bk l) s

/-- Noting the reads of several banks records exactly their unwritten limbs. -/
theorem noteAllReads_unwrittenOperand (bks : List BankId) (l : Nat) (s : State) :
    (s.noteAllReads bks l).unwrittenOperand = true ↔
      s.unwrittenOperand = true ∨ ∃ bk ∈ bks, ∃ j, j < l ∧ s.isWritten bk j = false := by
  induction bks generalizing s with
  | nil => simp [State.noteAllReads]
  | cons bk bks ih =>
    have hstep : s.noteAllReads (bk :: bks) l = (s.noteReads bk l).noteAllReads bks l := rfl
    rw [hstep, ih, noteReads_unwrittenOperand]
    simp only [isWritten_noteReads, List.mem_cons, exists_eq_or_imp, or_assoc]

/-- A command that completes without an error notes its reads of all the banks of `commandReads`. -/
theorem exec_unwrittenOperand {i : Instr} {s t : State} {l : Nat}
    (hl : limbCountOf Config.clampLcount (.instr i) s.internals.lcount = some l) (ht : exec i s = .next t)
    (hok : t.errCode = .none) : t.unwrittenOperand = (s.noteAllReads (commandReads i) l).unwrittenOperand := by
  cases i with
  | montmul =>
    cases ht
    have hl : effL Config.clampLcount s.internals.lcount = some l := hl
    simp only [montmulStep, hl] at hok ⊢
    split at hok
    case isTrue => simp at hok
    case isFalse heven => simp only [heven]; rfl
  | bitlen =>
    cases ht
    have hl : effL Config.clampLcount s.internals.lcount = some l := hl
    simp only [bitlenStep, hl] at hok ⊢
    split at hok
    case h_1 => simp at hok
    case h_2 => rfl
  | modexp4 =>
    cases ht
    obtain rfl : 4 = l := Option.some.inj hl
    simp only [modexp4Step] at hok ⊢
    split at hok
    case h_1 => simp at hok
    case h_2 =>
      split at hok
      case isTrue => simp at hok
      case isFalse heven => simp only [heven]; rfl
  | modexpg =>
    cases ht
    have hl : effL Config.clampLcount s.internals.lcount = some l := hl
    simp only [modexpgStep, hl] at hok ⊢
    split at hok
    case isTrue => simp at hok
    case isFalse heven => simp only [heven]; rfl

/-- Settles O34: a successful command notes its reads of the banks of R84 one after another. -/
theorem unwrittenOperandIsRecorded : Obligations.UnwrittenOperandIsRecorded := by
  intro i s l hl
  obtain ⟨f, c, res, e, k, q, m, ht, _⟩ := exec_shape i s
  refine ⟨_, ht, fun hok => ?_⟩
  rw [exec_unwrittenOperand hl ht hok]
  exact noteAllReads_unwrittenOperand _ _ _

end Sys2Proof.Machine
end

section
/-! PROOFS. The registers and the register map as the host sees them (spec/10_state.md R21 to R34). -/

namespace Sys2Proof.Machine

/-! ### Who changes the inputs and CFG -/

/-- The engine's turn leaves the inputs and CFG (R32). -/
theorem engineTurn_inputs {s t : State} (ht : engineTurn s = .next t) :
    t.inputs = s.inputs ∧ t.cfgFields = s.cfgFields := by
  rcases engineTurn_cases s with ⟨_, he⟩ | ⟨_, i, _, he⟩ | ⟨_, _, he⟩ <;> rw [he] at ht
  · cases ht; exact ⟨rfl, rfl⟩
  · obtain ⟨f, c, res, e, k, q, m, hx, _⟩ := exec_shape i s
    rw [hx] at ht
    cases ht
    exact ⟨rfl, rfl⟩
  · cases ht; exact ⟨rfl, rfl⟩

/-- A read leaves the inputs and CFG. -/
theorem readAt_inputs (off : Nat) (size : AccessSize) (s : State) :
    (s.readAt off size).inputs = s.inputs ∧ (s.readAt off size).cfgFields = s.cfgFields := by
  rcases readAt_cases off size s with ⟨_, hr⟩ | ⟨_, hr⟩ <;> rw [hr] <;> exact ⟨rfl, rfl⟩

section
variable {s : State} (hbusy : s.busy = true)
include hbusy

/-- No write of a target reaches an input or CFG of a busy engine (R245). -/
theorem writeTarget_inputs_busy (t : Target) (v : Word) :
    (s.writeTarget t v).inputs = s.inputs ∧ (s.writeTarget t v).cfgFields = s.cfgFields := by
  rcases writeTarget_cases s t v with hw | ⟨_, hw⟩ | ⟨_, hw⟩ | ⟨hidle, _⟩
  · rw [hw]; exact ⟨rfl, rfl⟩
  · rw [hw]; exact ⟨rfl, rfl⟩
  · rw [hw]; exact ⟨rfl, rfl⟩
  · simp [hbusy] at hidle

/-- No host write reaches an input or CFG of a busy engine. -/
theorem writeAt_inputs_busy (off : Nat) (size : AccessSize) (v : Word) :
    (s.writeAt off size v).inputs = s.inputs ∧ (s.writeAt off size v).cfgFields = s.cfgFields := by
  rcases writeAt_cases off size v s with ⟨_, hw⟩ | ⟨_, hw⟩ <;> rw [hw]
  · exact ⟨rfl, rfl⟩
  · exact writeTarget_inputs_busy hbusy (targetAt off) v

/-- No landing write reaches an input or CFG of a busy engine. -/
theorem land_inputs_busy (i : Nat) : (s.land i).inputs = s.inputs ∧ (s.land i).cfgFields = s.cfgFields := by
  rcases land_cases i s with ⟨_, hl⟩ | ⟨w, _, hl⟩ <;> rw [hl]
  · exact ⟨rfl, rfl⟩
  · have htaken : (s.withFabric (s.fabric.take i)).busy = true := hbusy
    exact writeAt_inputs_busy htaken w.off w.size w.data

end

/-- Settles O38: the engine's turn never writes them, and a busy engine drops every host write to them. -/
theorem inputsChangeOnlyByIdleHostWrites : Obligations.InputsChangeOnlyByIdleHostWrites := by
  intro s t hstep hreset hor
  rcases step_cases hstep with ⟨_, ht⟩ | ⟨_, size, rest, off, _, _, _, rfl⟩ | ⟨_, size, v, rest, off, hs, _, _, rfl⟩ |
    ⟨rest, hs, _⟩ | ⟨_, size, v, rest, off, _, _, _, rfl⟩ | ⟨i, rest, hs, rfl⟩
  · exact engineTurn_inputs (s := s.withSchedule s.schedule.tail) ht
  · exact readAt_inputs off size (s.withSchedule rest)
  · have hbusy : (s.withSchedule rest).busy = true := by simpa [State.engineNext, hs] using hor
    exact writeAt_inputs_busy hbusy off size v
  · simp [State.resetNext, hs] at hreset
  · exact ⟨rfl, rfl⟩
  · have hbusy : (s.withSchedule rest).busy = true := by simpa [State.engineNext, hs] using hor
    exact land_inputs_busy hbusy i

/-! ### STATUS, CFG, EXPBITS and WINK bit by bit -/

/-- STATUS bit by bit (R24). -/
theorem statusWord_getLsbD (s : State) (i : Nat) : s.statusWord.getLsbD i =
    if i = 0 then s.busy else if i = 1 then s.done else if i = 2 then s.busyErr
    else decide (4 ≤ i) && s.errCode.toBits.getLsbD (i - 4) := by
  simp only [State.statusWord, BitVec.getLsbD_append, BitVec.getLsbD_ofBool]
  grind

/-- CFG bit by bit (R25). -/
theorem cfgWord_getLsbD (s : State) (i : Nat) : s.cfgWord.getLsbD i =
    if i < 5 then s.lcount.getLsbD i else if 8 ≤ i ∧ i < 12 then s.ksel.getLsbD (i - 8)
    else if i = 16 then s.irqEn else false := by
  simp only [State.cfgWord, BitVec.getLsbD_append, BitVec.getLsbD_ofBool]
  grind

/-- A word whose 1 bits all lie in a mask has no bit outside it. -/
theorem and_not_eq_zero {x m : Word} (h : ∀ i, i < 64 → x.getLsbD i = true → m.getLsbD i = true) : x &&& ~~~m = 0 := by
  refine BitVec.eq_of_getLsbD_eq fun i hi => ?_
  have hbit := h i hi
  cases hx : x.getLsbD i <;> simp_all

/-- A field narrower than a word has no bit past its width. -/
theorem lt_of_getLsbD_setWidth {n i : Nat} {x : BitVec n} (h : (x.setWidth 64).getLsbD i = true) : i < n := by
  rw [BitVec.getLsbD_setWidth, Bool.and_eq_true] at h
  exact BitVec.lt_of_getLsbD h.2

/-- The bits of STATUS that a write of 1 clears: DONE and BUSYERR (R24). -/
theorem clearMask_getLsbD : ∀ i, i < 64 → (0x6 : Word).getLsbD i = decide (i = 1 ∨ i = 2) := by decide

/-- The bits of STATUS that are not reserved (R24). -/
theorem statusMask_getLsbD : ∀ i, i < 64 → (0xF7 : Word).getLsbD i = decide (i < 3 ∨ 4 ≤ i ∧ i < 8) := by decide

/-- The bits of CFG that are not reserved (R25). -/
theorem cfgMask_getLsbD : ∀ i, i < 64 →
    (0x10F1F : Word).getLsbD i = decide (i < 5 ∨ 8 ≤ i ∧ i < 12 ∨ i = 16) := by decide

/-- The bits of EXPBITS that are used (R27). -/
theorem expBitsMask_getLsbD : ∀ i, i < 64 → (0x7FF : Word).getLsbD i = decide (i < 11) := by decide

/-- The bits of WINK that are used (R28). -/
theorem winKMask_getLsbD : ∀ i, i < 64 → (0x7 : Word).getLsbD i = decide (i < 3) := by decide

/-- A write of STATUS clears DONE and BUSYERR where it has a 1, and no other bit (R24). -/
theorem statusWord_clearStatus (v : Word) (s : State) :
    (s.clearStatus v).statusWord = s.statusWord &&& ~~~(v &&& 0x6) := by
  refine BitVec.eq_of_getLsbD_eq fun i hi => ?_
  simp only [BitVec.getLsbD_and, BitVec.getLsbD_not, clearMask_getLsbD i hi, hi, statusWord_getLsbD,
    clearStatus_fields, busy_clearStatus]
  by_cases h1 : i = 1
  · simp [h1]
  · by_cases h2 : i = 2
    · simp [h2]
    · simp [h1, h2]

/-- Settles O49: the bits of STATUS one by one, and the effect of a write on each. -/
theorem statusLayoutAndClear : Obligations.StatusLayoutAndClear := by
  intro s v
  refine ⟨?_, ?_, ?_, ?_, ?_, ?_, statusWord_clearStatus v s, rfl, rfl, rfl, rfl⟩
  · exact statusWord_getLsbD s 0
  · exact statusWord_getLsbD s 1
  · exact statusWord_getLsbD s 2
  · exact statusWord_getLsbD s 3
  · refine BitVec.eq_of_getLsbD_eq fun i hi => ?_
    simp only [BitVec.getLsbD_extractLsb', statusWord_getLsbD, hi]
    rw [if_neg (by omega), if_neg (by omega), if_neg (by omega), Nat.add_sub_cancel_left]
    simp
  · refine BitVec.eq_of_getLsbD_eq fun i hi => ?_
    simp only [BitVec.getLsbD_extractLsb', statusWord_getLsbD, hi]
    rw [if_neg (by omega), if_neg (by omega), if_neg (by omega), BitVec.getLsbD_of_ge _ _ (by omega)]
    simp

/-- An idle write of CFG reads back with its reserved bits 0 (R25, R34). -/
theorem cfgWord_writeCfg (v : Word) (s : State) : (s.writeCfg v).cfgWord = v &&& 0x10F1F := by
  refine BitVec.eq_of_getLsbD_eq fun i hi => ?_
  simp only [BitVec.getLsbD_and, cfgMask_getLsbD i hi, cfgWord_getLsbD, writeCfg_fields, BitVec.getLsbD_extractLsb']
  grind

/-! ### The register map -/

/-- There are five banks (R30). -/
theorem bankAt_none {index : Nat} (h : 5 ≤ index) : bankAt index = none := by
  obtain ⟨n, rfl⟩ := Nat.exists_eq_add_of_le' h
  rfl

/-- A limb's offset maps back to the limb (R30). -/
theorem targetAt_limb (bk : BankId) (i : Fin 16) : targetAt (bk.base + 8 * i.val) = .limb bk i := by
  have hi := i.isLt
  have hrange : 0x100 ≤ bk.base + 8 * i.val := by cases bk <;> simp only [BankId.base] <;> omega
  have hbank : bankAt ((bk.base + 8 * i.val - 0x100) / 0x80) = some bk := by
    have hindex : (bk.base + 8 * i.val - 0x100) / 0x80 = (bk.base - 0x100) / 0x80 := by
      cases bk <;> simp only [BankId.base] <;> omega
    rw [hindex]
    cases bk <;> rfl
  have hlimb : (bk.base + 8 * i.val) / 8 % 16 = i.val := by
    cases bk <;> simp only [BankId.base] <;> omega
  rw [targetAt, if_neg (by omega), if_neg (by omega), hbank]
  exact congrArg (Target.limb bk) (Fin.ext hlimb)

/-- The reserved offsets are the gap after the registers and everything past the banks (R21). -/
theorem targetAt_eq_reserved_iff (off : Nat) :
    targetAt off = .reserved ↔ 0x040 ≤ off ∧ off < 0x100 ∨ 0x380 ≤ off := by
  by_cases hreg : off < 0x040
  · have hindex : off / 8 < 8 := by omega
    have htarget : registerAt (off / 8) ≠ .reserved := by interval_cases off / 8 <;> decide
    rw [targetAt, if_pos hreg]
    exact ⟨fun h => absurd h htarget, fun h => by omega⟩
  · by_cases hgap : off < 0x100
    · rw [targetAt, if_neg hreg, if_pos hgap]
      exact ⟨fun _ => .inl ⟨by omega, hgap⟩, fun _ => rfl⟩
    · rw [targetAt, if_neg hreg, if_neg hgap]
      by_cases hbank : off < 0x380
      · have hindex : (off - 0x100) / 0x80 < 5 := by omega
        obtain ⟨bk, hbk⟩ : ∃ bk, bankAt ((off - 0x100) / 0x80) = some bk := by
          interval_cases (off - 0x100) / 0x80 <;> exact ⟨_, rfl⟩
        rw [hbk]
        exact ⟨fun h => by simp at h, fun h => by omega⟩
      · rw [bankAt_none (by omega)]
        exact ⟨fun _ => .inr (by omega), fun _ => rfl⟩

/-- An access at a reserved offset gets a bus error whatever its size (R205). -/
theorem busError_reserved {off : Nat} (h : targetAt off = .reserved) (size : AccessSize) :
    busError off size = true := by
  simp [busError, h]

/-- Settles O47: target by target, and by the exact reserved ranges. -/
theorem registerMap : Obligations.RegisterMap := by
  refine ⟨fun t off ht => ?_, fun off _ _ => (targetAt_eq_reserved_iff off).symm⟩
  cases t with
  | limb bk i =>
    obtain rfl : bk.base + 8 * i.val = off := Option.some.inj ht
    have hi := i.isLt
    refine ⟨?_, ?_, targetAt_limb bk i⟩ <;> cases bk <;> simp only [BankId.base] <;> omega
  | reserved => cases ht
  | _ => cases ht; decide

section
variable {s : State} (hidle : s.busy = false)
include hidle

/-- An idle engine lets a write of an input limb through (R245). -/
theorem writeTarget_limb_idle {bk : BankId} (hres : bk ≠ .res) (j : Fin 16) (v : Word) :
    s.writeTarget (.limb bk j) v = s.setLimb bk j.val v := by
  cases bk
  case res => exact absurd rfl hres
  all_goals simp [State.writeTarget, State.whenIdle, hidle]

/-- An idle engine lets a write of N0 through. -/
theorem writeTarget_n0_idle (v : Word) : s.writeTarget .n0 v = s.writeN0 v := by
  simp [State.writeTarget, State.whenIdle, hidle]

/-- An idle engine lets a write of CFG through. -/
theorem writeTarget_cfg_idle (v : Word) : s.writeTarget .cfg v = s.writeCfg v := by
  simp [State.writeTarget, State.whenIdle, hidle]

end

/-- Settles O50: each register's bits lie in its mask. -/
theorem reservedBitsReadZero : Obligations.ReservedBitsReadZero := by
  intro s v
  refine ⟨fun hidle => ?_, ?_, ?_, ?_, ?_, fun off size hoff _ =>
    busError_reserved ((targetAt_eq_reserved_iff off).2 hoff) size⟩
  · rw [writeTarget_cfg_idle hidle]
    exact cfgWord_writeCfg v s
  · refine and_not_eq_zero fun i hi hbit => ?_
    simp only [State.readTarget, cfgWord_getLsbD] at hbit
    simp only [cfgMask_getLsbD i hi]
    grind
  · refine and_not_eq_zero fun i hi hbit => ?_
    simp only [State.readTarget, statusWord_getLsbD] at hbit
    simp only [statusMask_getLsbD i hi]
    grind
  · refine and_not_eq_zero fun i hi hbit => ?_
    rw [expBitsMask_getLsbD i hi, decide_eq_true (lt_of_getLsbD_setWidth hbit)]
  · refine and_not_eq_zero fun i hi hbit => ?_
    rw [winKMask_getLsbD i hi, decide_eq_true (lt_of_getLsbD_setWidth hbit)]

/-! ### Reads and writes of targets -/

/-- An unwritten limb reads the free value of its epoch (R33). -/
theorem limb_of_unwritten {s : State} {bk : BankId} {i : Nat} (hi : i < 16) (h : s.isWritten bk i = false) :
    s.limb bk i = Config.unwrittenLimb s.epoch bk i := by
  simp only [State.isWritten, Vector.getElem?_eq_getElem hi] at h
  simp [State.limb, Vector.getElem?_eq_getElem hi, h]

/-- A written limb reads its stored value (R33). -/
theorem limb_of_written {s : State} {bk : BankId} {i : Nat} (hi : i < 16) (h : s.isWritten bk i = true) :
    ∃ l : Limb, (s.bank bk)[i]? = some l ∧ s.limb bk i = l.value := by
  simp only [State.isWritten, Vector.getElem?_eq_getElem hi] at h
  exact ⟨_, Vector.getElem?_eq_getElem hi, by simp [State.limb, Vector.getElem?_eq_getElem hi, h]⟩

/-- Settles O52: the limb's written mark decides which value it reads. -/
theorem unwrittenLimbReads : Obligations.UnwrittenLimbReads :=
  fun _ _ i => ⟨limb_of_unwritten i.isLt, limb_of_written i.isLt⟩

/-- Settles O44: the registers by evaluation, the limbs because none is written. -/
theorem resetValues : Obligations.ResetValues := by
  refine ⟨rfl, rfl, rfl, rfl, rfl, rfl, rfl, rfl, rfl, rfl, fun bk i => ?_⟩
  have hunwritten : State.reset.isWritten bk i = false := isWritten_reset_bank (by cases bk <;> rfl) i
  exact ⟨hunwritten, limb_of_unwritten i.isLt hunwritten⟩

/-- Settles O48: no field of the state enters the read. -/
theorem idReadsConstant : Obligations.IdReadsConstant :=
  fun _ => ⟨rfl, by simp only [State.readTarget]; decide⟩

/-- Writing a limb leaves what every other target reads. -/
theorem readTarget_setLimb_other (s : State) (bk : BankId) (j : Fin 16) (v : Word) {t : Target}
    (h : t ≠ .limb bk j) : (s.setLimb bk j.val v).readTarget t = s.readTarget t := by
  cases t with
  | limb ck i =>
    refine limb_setLimb_other s ?_ v
    by_cases hbank : ck = bk
    · exact .inr fun hlimb => h (by rw [hbank, Fin.ext hlimb])
    · exact .inl hbank
  | _ => cases bk <;> rfl

/-- Writing N0 leaves what every other target reads. -/
theorem readTarget_writeN0_other (s : State) (v : Word) {t : Target} (h : t ≠ .n0) :
    (s.writeN0 v).readTarget t = s.readTarget t := by
  cases t with
  | n0 => exact absurd rfl h
  | limb bk i => exact limb_congr (by cases bk <;> rfl) rfl i.val
  | _ => rfl

/-- Writing CFG leaves what every other target reads. -/
theorem readTarget_writeCfg_other (s : State) (v : Word) {t : Target} (h : t ≠ .cfg) :
    (s.writeCfg v).readTarget t = s.readTarget t := by
  cases t with
  | cfg => exact absurd rfl h
  | limb bk i => exact limb_congr (by cases bk <;> rfl) rfl i.val
  | _ => rfl

/-- Settles O51: an idle write is performed, and each target's write changes that target's read alone. -/
theorem idleWriteReadsBack : Obligations.IdleWriteReadsBack := by
  intro s v hidle
  refine ⟨fun bk j hres => ?_, ?_, fun t ht => ?_, fun t ht => ?_⟩
  · rw [writeTarget_limb_idle hidle hres]
    exact ⟨limb_setLimb_same s bk j.isLt v, isWritten_setLimb_same s bk j.isLt v,
      fun t ht => readTarget_setLimb_other s bk j v ht⟩
  · rw [writeTarget_n0_idle hidle]; rfl
  · rw [writeTarget_n0_idle hidle]; exact readTarget_writeN0_other s v ht
  · rw [writeTarget_cfg_idle hidle]; exact readTarget_writeCfg_other s v ht

/-! ### Writes of read-only targets -/

/-- The targets whose writes are ignored (R21). -/
def Target.isReadOnly : Target → Bool
  | .id | .expBits | .winK | .opCount => true
  | .limb bk _ => bk == .res
  | _ => false

/-- A write of a read-only target is ignored (R21). -/
theorem writeTarget_readOnly {t : Target} (h : t.isReadOnly = true) (v : Word) (s : State) : s.writeTarget t v = s := by
  cases t with
  | limb bk i =>
    obtain rfl : bk = .res := by simpa [Target.isReadOnly] using h
    rfl
  | id | expBits | winK | opCount => rfl
  | cmd | status | cfg | n0 | reserved => cases h

/-- An 8-byte write at the aligned offset of a read-only target answers without an error, and does nothing else. -/
theorem writeAt_readOnly {off : Nat} (halign : off % 8 = 0) (h : (targetAt off).isReadOnly = true) (v : Word)
    (s : State) : s.writeAt off (.bytes 8) v = s.respond .writeDone := by
  have hreserved : targetAt off ≠ .reserved := fun hr => by rw [hr] at h; cases h
  have hok : busError off (.bytes 8) = false := by simp [busError, AccessSize.supported, halign, hreserved]
  simp [State.writeAt, hok, writeTarget_readOnly h]

/-- Settles O54: each of these offsets holds a read-only target. -/
theorem readOnlyWritesAreIgnored : Obligations.ReadOnlyWritesAreIgnored := by
  intro s off v rest hoff
  have hmap : off < 4096 ∧ off % 8 = 0 ∧ (targetAt off).isReadOnly = true := by
    rcases hoff with hreg | ⟨hlo, hhi, halign⟩
    · fin_cases hreg <;> decide
    · have hres : off = BankId.res.base + 8 * ((off - 0x300) / 8) := by simp only [BankId.base]; omega
      refine ⟨by omega, halign, ?_⟩
      rw [hres, targetAt_limb .res ⟨(off - 0x300) / 8, by omega⟩]
      rfl
  obtain ⟨hwindow, halign, hro⟩ := hmap
  rw [step_write s hwindow, writeAt_readOnly halign hro]

end Sys2Proof.Machine
end

section
/-! PROOFS. The window as memory: accesses outside it, reads without side effects, the byte view of a bank, and who
writes the outputs (spec/20_memory.md R60 to R71). -/

namespace Sys2Proof.Machine

/-! ### Accesses outside the window -/

/-- A host access outside the window stops the model, whatever it would have done there (R60). -/
theorem hostAccess_outside {addr : Nat} (h : addr < Config.baseAddr ∨ Config.baseAddr + 4096 ≤ addr)
    (act : Nat → State) : hostAccess addr act = .fault .outsideWindow := by
  simp only [hostAccess, windowOffset_outside h]

/-- Settles O56: both accesses go through the window operation, which has no offset for such an address. -/
theorem accessOutsideWindowFaults : Obligations.AccessOutsideWindowFaults :=
  fun _ _ _ _ _ h => ⟨hostAccess_outside h _, hostAccess_outside h _⟩

/-! ### Reads have no side effect -/

/-- Replacing the schedule leaves what every target reads. -/
@[simp] theorem readTarget_withSchedule (s : State) (events : List Event) (t : Target) :
    (s.withSchedule events).readTarget t = s.readTarget t := by
  cases t with
  | limb bk i => exact limb_congr (by cases bk <;> rfl) rfl i.val
  | _ => rfl

/-- A bus answer leaves what every target reads. -/
@[simp] theorem readTarget_respond (s : State) (r : Response) (t : Target) :
    (s.respond r).readTarget t = s.readTarget t := by
  cases t with
  | limb bk i => exact limb_congr (by cases bk <;> rfl) rfl i.val
  | _ => rfl

/-- An aligned 8-byte access at an offset that is not reserved gets no bus error (R61, R62, R205). -/
theorem busError_aligned {off : Nat} (halign : off % 8 = 0) (h : targetAt off ≠ .reserved) :
    busError off (.bytes 8) = false := by
  simp [busError, AccessSize.supported, halign, h]

/-- A scheduled read of a target answers its value, and changes nothing but the answer (R66, R67). -/
theorem step_read_target (s : State) {off : Nat} (hoff : off < 4096) (halign : off % 8 = 0)
    (h : targetAt off ≠ .reserved) (rest : List Event) :
    step (s.withSchedule (.read (Config.baseAddr + off) (.bytes 8) :: rest))
      = .next ((s.withSchedule rest).respond (.readData (s.readTarget (targetAt off)))) := by
  rw [step_read s hoff, State.readAt, busError_aligned halign h]
  simp

/-- Settles O53: the second read is a read from the state that the first one left. -/
theorem readsHaveNoSideEffect : Obligations.ReadsHaveNoSideEffect := by
  intro s off rest hoff halign h rd
  refine ⟨_, _, step_read_target s hoff halign h (rd :: rest), ?_, rfl, rfl⟩
  have hsecond := step_read_target (s.respond (.readData (s.readTarget (targetAt off)))) hoff halign h rest
  rwa [readTarget_respond] at hsecond

/-! ### The byte view of a bank -/

/-- The value of the little-endian byte string `f 0`, ..., `f (n - 1)` (R64). -/
def byteSum (f : Nat → Byte) (n : Nat) : Nat := ((List.range n).map fun a => (f a).toNat * 256 ^ a).sum

theorem byteSum_succ (f : Nat → Byte) (n : Nat) : byteSum f (n + 1) = byteSum f n + (f n).toNat * 256 ^ n := by
  simp [byteSum, List.range_succ]

/-- A byte string is its first `m` bytes, and the rest shifted up by `m` bytes. -/
theorem byteSum_add (f : Nat → Byte) (m n : Nat) :
    byteSum f (m + n) = byteSum f m + 256 ^ m * byteSum (fun k => f (m + k)) n := by
  induction n with
  | zero => simp [byteSum]
  | succ n ih =>
    rw [← Nat.add_assoc, byteSum_succ, byteSum_succ, ih, pow_add]
    ring

/-- Byte lane `k` of a word is its digit `k` in base 256 (R64). -/
theorem byteLane_toNat (v : Word) (k : Nat) : (byteLane v k).toNat = v.toNat / 256 ^ k % 256 := by
  rw [byteLane, BitVec.extractLsb'_toNat, Nat.shiftRight_eq_div_pow, pow_mul]
  norm_num

/-- The low `k` byte lanes of a word hold its value modulo `256 ^ k`. -/
theorem byteSum_byteLane (v : Word) (k : Nat) : byteSum (byteLane v) k = v.toNat % 256 ^ k := by
  induction k with
  | zero => simp [byteSum, Nat.mod_one]
  | succ k ih => rw [byteSum_succ, ih, byteLane_toNat, Nat.mod_pow_succ, Nat.mul_comm]

/-- The eight byte lanes of a word hold its value. -/
theorem byteSum_word (v : Word) : byteSum (byteLane v) 8 = v.toNat := by
  rw [byteSum_byteLane]
  exact Nat.mod_eq_of_lt v.isLt

theorem byteSum_congr {f g : Nat → Byte} {n : Nat} (h : ∀ a, a < n → f a = g a) : byteSum f n = byteSum g n :=
  congrArg List.sum (List.map_congr_left fun a ha => by rw [h a (List.mem_range.1 ha)])

/-- A byte string cut into words of eight byte lanes has the value of the words as limbs (R63, R64). -/
theorem byteSum_eq_val {f : Nat → Byte} {w : Nat → Word} {l : Nat}
    (h : ∀ i, i < l → ∀ k, k < 8 → f (8 * i + k) = byteLane (w i) k) :
    byteSum f (8 * l) = val ((List.range l).map w) := by
  induction l with
  | zero => rfl
  | succ l ih =>
    have hlow := ih fun i hi => h i (Nat.lt_succ_of_lt hi)
    have htop : byteSum (fun k => f (8 * l + k)) 8 = (w l).toNat :=
      (byteSum_congr (h l (Nat.lt_succ_self l))).trans (byteSum_word (w l))
    have hshift : 256 ^ (8 * l) = radix l := by rw [radix, pow_mul, pow_mul]; norm_num
    rw [Nat.mul_succ, byteSum_add, hlow, htop, hshift, List.range_succ, List.map_append, val_append]
    simp

/-- Byte `k` of limb `i` of a bank is byte lane `k` of the limb (R63, R64). -/
theorem windowByte_limb (s : State) (bk : BankId) (i : Fin 16) {k : Nat} (hk : k < 8) :
    s.windowByte (bk.base + (8 * i.val + k)) = byteLane (s.limb bk i.val) k := by
  have hoff : (bk.base + (8 * i.val + k)) / 8 * 8 = bk.base + 8 * i.val := by
    cases bk <;> simp only [BankId.base] <;> omega
  have hlane : (bk.base + (8 * i.val + k)) % 8 = k := by
    cases bk <;> simp only [BankId.base] <;> omega
  rw [State.windowByte, hoff, hlane, targetAt_limb]
  rfl

/-- Settles O57: limb by limb, each limb being its eight byte lanes. -/
theorem bankBytesAreLittleEndian : Obligations.BankBytesAreLittleEndian :=
  fun s bk => byteSum_eq_val (l := 16) fun i hi _ hk => windowByte_limb s bk ⟨i, hi⟩ hk

/-! ### Who changes the outputs -/

/-- A read leaves the outputs (R66). -/
@[simp] theorem outputs_readAt (off : Nat) (size : AccessSize) (s : State) :
    (s.readAt off size).outputs = s.outputs := by
  rcases readAt_cases off size s with ⟨_, hr⟩ | ⟨_, hr⟩ <;> rw [hr] <;> rfl

/-- No write of a target reaches the outputs, busy or idle (R71). -/
@[simp] theorem outputs_writeTarget (t : Target) (v : Word) (s : State) :
    (s.writeTarget t v).outputs = s.outputs := by
  rcases writeTarget_cases s t v with hw | ⟨_, hw⟩ | ⟨_, hw⟩ | ⟨_, hw⟩
  · rw [hw]
  · rw [hw]; rfl
  · rw [hw]; rfl
  · rcases hw with ⟨_, hw⟩ | ⟨_, hw⟩ | ⟨_, hw⟩ | ⟨bk, i, hres, _, hw⟩ <;> rw [hw]
    · rfl
    · rfl
    · rfl
    · exact outputs_setLimb s hres i.val v

/-- No host write reaches the outputs. -/
@[simp] theorem outputs_writeAt (off : Nat) (size : AccessSize) (v : Word) (s : State) :
    (s.writeAt off size v).outputs = s.outputs := by
  rcases writeAt_cases off size v s with ⟨_, hw⟩ | ⟨_, hw⟩ <;> rw [hw]
  · rfl
  · exact outputs_writeTarget (targetAt off) v s

/-- No landing write reaches the outputs. -/
@[simp] theorem outputs_land (i : Nat) (s : State) : (s.land i).outputs = s.outputs := by
  rcases land_cases i s with ⟨_, hl⟩ | ⟨w, _, hl⟩ <;> rw [hl]
  exact outputs_writeAt w.off w.size w.data (s.withFabric (s.fabric.take i))

/-- The turn of an idle engine changes nothing (spec/60_exceptions.md R219). -/
theorem engineTurn_idle {s : State} (hidle : s.busy = false) : engineTurn s = .next s := by
  simp only [engineTurn, (busy_eq_false s).1 hidle]

/-- Settles O39: an engine turn that is no completion is that of an idle engine, and no host event reaches the outputs. -/
theorem outputsChangeOnlyAtCompletionOrReset : Obligations.OutputsChangeOnlyAtCompletionOrReset := by
  intro s t hstep hreset hcompletion
  rcases step_cases hstep with ⟨hs, ht⟩ | ⟨_, size, rest, off, _, _, _, rfl⟩ | ⟨_, size, v, rest, off, _, _, _, rfl⟩ |
    ⟨rest, hs, _⟩ | ⟨_, size, v, rest, off, _, _, _, rfl⟩ | ⟨i, rest, _, rfl⟩
  · have hengine : s.engineNext = true := by
      rcases hs with hs | ⟨_, hs⟩ <;> simp [State.engineNext, hs]
    have hidle : (s.withSchedule s.schedule.tail).busy = false :=
      Bool.eq_false_iff.2 fun hbusy => hcompletion ⟨hbusy, hengine⟩
    rw [engineTurn_idle hidle] at ht
    cases ht
    rfl
  · exact outputs_readAt off size (s.withSchedule rest)
  · exact outputs_writeAt off size v (s.withSchedule rest)
  · simp [State.resetNext, hs] at hreset
  · rfl
  · exact outputs_land i (s.withSchedule rest)

end Sys2Proof.Machine
end

section
/-! PROOFS. Command words and the operand decoders (spec/30_encoding.md R80 to R86). -/

namespace Sys2Proof

/-! ### Command words -/

/-- A word is its two fields (R80). -/
theorem mbzField_append_opField (v : Word) : mbzField v ++ opField v = v := by
  refine BitVec.eq_of_getLsbD_eq fun i hi => ?_
  rw [BitVec.getLsbD_append]
  split
  case isTrue hlow => simp [opField, hlow]
  case isFalse hhigh =>
    have hbit : i - 4 < 60 ∧ 4 + (i - 4) = i := by omega
    simp [mbzField, hbit]

@[simp] theorem opField_encode (i : Instr) : opField (encode i) = i.opcode := by cases i <;> decide

@[simp] theorem mbzField_encode (i : Instr) : mbzField (encode i) = 0 := by cases i <;> decide

/-- The encoding of a command is the one word with its opcode and a zero must-be-zero field (R80, R81). -/
theorem eq_encode_iff (v : Word) (i : Instr) : v = encode i ↔ mbzField v = 0 ∧ opField v = i.opcode := by
  constructor
  · rintro rfl
    exact ⟨mbzField_encode i, opField_encode i⟩
  · rintro ⟨hmbz, hop⟩
    rw [← mbzField_append_opField v, hmbz, hop]
    rfl

/-- The words that decode to a command (R82). With the must-be-zero field clear, that is a fact about the 16 opcodes. -/
theorem decode_eq_instr_iff (v : Word) (i : Instr) :
    decode v = .instr i ↔ mbzField v = 0 ∧ opField v = i.opcode := by
  by_cases hmbz : mbzField v = 0
  · have hop : decode v = .instr i ↔ opField v = i.opcode := by
      simp only [decode, hmbz]
      generalize opField v = op
      revert op
      cases i <;> decide
    simp [hmbz, hop]
  · have hillegal : decode v = .illegal := if_pos hmbz
    rw [hillegal]
    exact ⟨fun h => by simp at h, fun h => absurd h.1 hmbz⟩

/-- A command word keeps all 64 bits that the opcode table gives it. -/
@[simp] theorem commandWord_toNat (v : Word) : commandWord 64 v.toNat = v := by
  rw [commandWord, Nat.mod_eq_of_lt v.isLt, BitVec.ofNat_toNat, BitVec.setWidth_eq]

theorem decodeTableWord_of_decode {v : Word} {i : Instr} (h : decode v = .instr i) :
    decodeTableWord 64 v.toNat = some i := by
  simp [decodeTableWord, h]

/-- Settles O2: decoding to a command and being its encoding both fix the same two fields. -/
theorem decodeInvertsEncodeExactly : Obligations.DecodeInvertsEncodeExactly := by
  intro i v _
  have hiff : ∀ w, decode w = .instr i ↔ w = encode i := fun w =>
    (decode_eq_instr_iff w i).trans (eq_encode_iff w i).symm
  exact ⟨hiff v, decodeTableWord_of_decode ((hiff _).2 rfl)⟩

/-- Settles O1: nine fixed words, by evaluation. -/
theorem specWordsDecode : Obligations.SpecWordsDecode := by
  unfold Obligations.SpecWordsDecode
  decide

end Sys2Proof

namespace Sys2Proof.Machine

/-! ### The effective limb count and window width -/

/-- LCOUNT = 0 is rejected (R85). -/
theorem effL_zero {f : BitVec 5} (h : f.toNat = 0) (clamp : Bool) : effL clamp f = none := by
  rw [effL, if_pos h]

/-- A legal LCOUNT is the limb count (R85). -/
theorem effL_legal {f : BitVec 5} (hlo : 1 ≤ f.toNat) (hhi : f.toNat ≤ 16) (clamp : Bool) :
    effL clamp f = some f.toNat := by
  rw [effL, if_neg (by omega), if_pos hhi]

/-- An oversize LCOUNT is clamped or rejected (R85). -/
theorem effL_oversize {f : BitVec 5} (h : 17 ≤ f.toNat) (clamp : Bool) :
    effL clamp f = if clamp then some 16 else none := by
  rw [effL, if_neg (by omega), if_neg (by omega)]

/-- MODEXP4 runs at four limbs, and the other commands at the effective limb count (R85). -/
theorem limbCountOf_instr (clamp : Bool) (i : Instr) (f : BitVec 5) :
    limbCountOf clamp (.instr i) f = if i = .modexp4 then some 4 else effL clamp f := by
  cases i <;> rfl

/-- Settles O4: one clause for each branch of `effL`. -/
theorem effectiveLimbCount : Obligations.EffectiveLimbCount :=
  fun f clamp => ⟨fun h => effL_zero h clamp, fun hlo hhi => effL_legal hlo hhi clamp, fun h => effL_oversize h true,
    fun h => effL_oversize h false, fun i => limbCountOf_instr clamp i f⟩

/-- The legal window selectors by their numbers (R86). -/
theorem kselLegal_iff : ∀ f : BitVec 4, kselLegal f = true ↔
    f.toNat = 0 ∨ f.toNat = 1 ∨ f.toNat = 3 ∨ f.toNat = 4 ∨ f.toNat = 5 := by decide

/-- The selector 0 asks for the policy's width (R86). -/
theorem effK_zero {f : BitVec 4} (h : f.toNat = 0) (expLen : Nat) : effK f expLen = some (selectK expLen) := by
  rw [effK, if_pos (BitVec.eq_of_toNat_eq h)]

/-- A selector other than 0 is the width itself where it is legal (R86). -/
theorem effK_nonzero {f : BitVec 4} (h : f.toNat ≠ 0) (expLen : Nat) :
    effK f expLen = if kselLegal f then some f.toNat else none := by
  have hf : f ≠ 0 := by
    rintro rfl
    exact h rfl
  rw [effK, if_neg hf]

/-- Settles O5: the selector 0, the other legal ones, and the illegal ones. -/
theorem effectiveWindowWidth : Obligations.EffectiveWindowWidth := by
  intro f expLen
  refine ⟨fun h => effK_zero h expLen, fun h => ?_, fun h => ?_, rfl, rfl, rfl⟩
  · rw [effK_nonzero (by omega), if_pos ((kselLegal_iff f).2 (.inr h))]
  · have hillegal : ¬ kselLegal f = true := fun hk => by
      have hlegal := (kselLegal_iff f).1 hk
      omega
    rw [effK_nonzero (by omega), if_neg hillegal]

end Sys2Proof.Machine
end

section
/-! PROOFS. The frame of a command over the bytes of the window (spec/30_encoding.md R84; spec/10_state.md R31, R32). -/

namespace Sys2Proof.Machine

/-! ### From a byte back to its target -/

/-- A target that is not reserved stands at its own offset alone: the other direction of the register map (R21). -/
theorem offset_targetAt {off : Nat} (halign : off % 8 = 0) (h : targetAt off ≠ .reserved) :
    (targetAt off).offset = some off := by
  by_cases hreg : off < 0x040
  · obtain ⟨k, rfl⟩ : ∃ k, off = 8 * k := ⟨off / 8, by omega⟩
    have hk : k < 8 := by omega
    interval_cases k <;> rfl
  · have hrange := mt (targetAt_eq_reserved_iff off).2 h
    have hi : off / 8 % 16 < 16 := Nat.mod_lt _ (by decide)
    obtain ⟨bk, hbk⟩ : ∃ bk : BankId, off = bk.base + 8 * (off / 8 % 16) := by
      obtain hb | hb | hb | hb | hb : off / 0x80 = 2 ∨ off / 0x80 = 3 ∨ off / 0x80 = 4 ∨ off / 0x80 = 5 ∨
          off / 0x80 = 6 := by omega
      · exact ⟨.n, by simp only [BankId.base]; omega⟩
      · exact ⟨.rr, by simp only [BankId.base]; omega⟩
      · exact ⟨.a, by simp only [BankId.base]; omega⟩
      · exact ⟨.b, by simp only [BankId.base]; omega⟩
      · exact ⟨.res, by simp only [BankId.base]; omega⟩
    have htarget := targetAt_limb bk ⟨off / 8 % 16, hi⟩
    simp only [← hbk] at htarget
    rw [htarget, Target.offset]
    exact congrArg some hbk.symm

/-- The targets a command may write: STATUS and the outputs of R84. -/
def commandWritesTarget (i : Instr) : Target → Bool
  | .status | .opCount => true
  | .expBits | .winK => i != .montmul
  | .limb bk _ => bk == .res && i != .bitlen
  | .id | .cmd | .cfg | .n0 | .reserved => false

/-- A byte of a target that a command may write is a byte that it may write. -/
theorem commandMayWrite_of_target {i : Instr} {a : Nat}
    (h : commandWritesTarget i (targetAt (a / 8 * 8)) = true) : commandMayWrite i a = true := by
  have hoff := offset_targetAt (off := a / 8 * 8) (by omega) (fun hr => by rw [hr] at h; cases h)
  generalize targetAt (a / 8 * 8) = t at h hoff
  cases t with
  | status =>
    have hat : 0x010 = a / 8 * 8 := Option.some.inj hoff
    obtain ⟨hlo, hhi⟩ : 0x010 ≤ a ∧ a < 0x018 := by omega
    cases i <;> simp [commandMayWrite, hlo, hhi]
  | opCount =>
    have hat : 0x038 = a / 8 * 8 := Option.some.inj hoff
    obtain ⟨hlo, hhi⟩ : 0x038 ≤ a ∧ a < 0x040 := by omega
    cases i <;> simp [commandMayWrite, hlo, hhi]
  | expBits | winK =>
    obtain ⟨hlo, hhi⟩ : 0x028 ≤ a ∧ a < 0x038 := by
      simp only [Target.offset, Option.some.injEq] at hoff
      omega
    cases i
    case montmul => cases h
    all_goals simp [commandMayWrite, hlo, hhi]
  | limb bk j =>
    obtain ⟨rfl, hi⟩ : bk = .res ∧ i ≠ .bitlen := by simpa [commandWritesTarget] using h
    obtain ⟨hlo, hhi⟩ : 0x300 ≤ a ∧ a < 0x380 := by
      have hj := j.isLt
      simp only [Target.offset, BankId.base, Option.some.injEq] at hoff
      omega
    cases i
    case bitlen => exact absurd rfl hi
    all_goals simp [commandMayWrite, hlo, hhi]
  | id | cmd | cfg | n0 | reserved => cases h

/-! ### What a completion leaves -/

/-- The next state of a command is a completion that replaces outputs and may record the model fault, nothing else. -/
theorem exec_next {i : Instr} {s t : State} (ht : exec i s = .next t) :
    ∃ f c res e k q m, t = (s.withOutputs f res e k q m).finish c := by
  obtain ⟨f, c, res, e, k, q, m, hx, _⟩ := exec_shape i s
  rw [hx] at ht
  cases ht
  exact ⟨f, c, res, e, k, q, m, rfl⟩

/-- MONTMUL leaves EXPBITS and WINK as they were (R121). -/
theorem exec_montmul_scan {s t : State} (ht : exec .montmul s = .next t) :
    t.expBits = s.expBits ∧ t.winK = s.winK := by
  cases ht
  rcases montmulStep_cases s with ⟨f, c, _, hs⟩ | ⟨f, l, _, _, hs⟩ <;> rw [hs] <;> exact ⟨rfl, rfl⟩

/-- A command leaves every target that it may not write as it read before. -/
theorem exec_readTarget {i : Instr} {s t : State} (ht : exec i s = .next t) {tgt : Target}
    (h : commandWritesTarget i tgt = false) : t.readTarget tgt = s.readTarget tgt := by
  obtain ⟨f, c, res, e, k, q, m, rfl⟩ := exec_next ht
  cases tgt with
  | status | opCount => cases h
  | expBits =>
    obtain rfl : i = .montmul := by simpa [commandWritesTarget] using h
    exact congrArg (BitVec.setWidth 64) (exec_montmul_scan ht).1
  | winK =>
    obtain rfl : i = .montmul := by simpa [commandWritesTarget] using h
    exact congrArg (BitVec.setWidth 64) (exec_montmul_scan ht).2
  | limb bk j =>
    have hbank : ((s.withOutputs f res e k q m).finish c).bank bk = s.bank bk := by
      cases bk with
      | res =>
        obtain rfl : i = .bitlen := by simpa [commandWritesTarget] using h
        exact exec_bitlen_bankRes ht
      | n | rr | a | b => rfl
    exact limb_congr hbank rfl j.val
  | id | cmd | cfg | n0 | reserved => rfl

/-- Settles O30: byte by byte through the targets, and the rest from the shape of a completion. -/
theorem commandFrame : Obligations.CommandFrame := by
  intro i s t ht
  refine ⟨fun a _ hmay => ?_, ?_⟩
  · have hwrites : commandWritesTarget i (targetAt (a / 8 * 8)) = false :=
      Bool.eq_false_iff.2 fun hw => Bool.eq_false_iff.1 hmay (commandMayWrite_of_target hw)
    rw [State.windowByte, State.windowByte, exec_readTarget ht hwrites]
  · obtain ⟨f, c, res, e, k, q, m, rfl⟩ := exec_next ht
    exact ⟨rfl, rfl, rfl, rfl, rfl, rfl, rfl, rfl, fun hu => by simp [hu]⟩

end Sys2Proof.Machine
end

section
/-! PROOFS. The pseudo-instruction LDV (spec/30_encoding.md R87, R88), run one write at a time. -/

namespace Sys2Proof.Machine

/-- What LDV writes to limb i: x shifted right by 64·i bits (R88). -/
def ldvWord (x i : Nat) : Word := BitVec.ofNat 64 (x >>> (64 * i))

/-- The words that LDV writes are the limb vector of x (R9, R88). -/
theorem vecL_eq_map (l x : Nat) : vecL l x = (List.range l).map (ldvWord x) := by
  induction l generalizing x with
  | zero => rfl
  | succ l ih =>
    have hshift : ldvWord (x / 2 ^ 64) = ldvWord x ∘ Nat.succ := funext fun i => by
      simp only [ldvWord, Function.comp]
      rw [← Nat.shiftRight_eq_div_pow, ← Nat.shiftRight_add, Nat.mul_succ, Nat.add_comm]
    rw [vecL, ih, hshift, List.range_succ_eq_map, List.map_cons, List.map_map]
    rfl

/-- LDV of one more limb is LDV and then the write of that limb. -/
theorem asmLdv_succ (bk : BankId) (l x : Nat) (rest : List Event) :
    asmLdv bk (l + 1) x ++ rest = asmLdv bk l x ++ asmWriteAt (bk.base + 8 * l) (ldvWord x l) :: rest := by
  simp [asmLdv, ldvWord, List.range_succ]

/-- A run that ends in a next state goes on with the step of that state. -/
theorem run_succ_last {k : Nat} {s t : State} (h : Sys2Proof.core.run k s = .next t) :
    Sys2Proof.core.run (k + 1) s = step t := by
  induction k generalizing s with
  | zero =>
    cases h
    change Sys2Proof.core.run 1 t = Sys2Proof.core.step t
    simp only [Host.Core.run]
    cases Sys2Proof.core.step t <;> rfl
  | succ k ih =>
    cases hstep : Sys2Proof.core.step s with
    | next u =>
      rw [run_next hstep] at h ⊢
      exact ih h
    | fault r => simp [Host.Core.run, hstep] at h
    | refused r => simp [Host.Core.run, hstep] at h

/-- A scheduled 8-byte write of an input limb stores it in an idle engine, and answers (R87, R245). -/
theorem step_writeLimb {s : State} (hidle : s.busy = false) {bk : BankId} (hres : bk ≠ .res) (j : Fin 16) (v : Word)
    (rest : List Event) :
    step (s.withSchedule (asmWriteAt (bk.base + 8 * j.val) v :: rest))
      = .next (((s.withSchedule rest).setLimb bk j.val v).respond .writeDone) := by
  obtain ⟨halign, hwindow, hmap⟩ := registerMap.1 (.limb bk j) _ rfl
  have hok : busError (bk.base + 8 * j.val) (.bytes 8) = false := busError_aligned halign (by simp [hmap])
  have hidle' : (s.withSchedule rest).busy = false := hidle
  rw [asmWriteAt, step_write s hwindow, State.writeAt, hok, hmap, writeTarget_limb_idle hidle' hres]
  rfl

/-- What the first `l` writes of LDV have done to an idle engine, with `rest` still scheduled: limbs 0 to l-1 of the
bank are those of x and written, and the limbs above and the outputs are as they were. -/
structure State.LdvDone (s t : State) (bk : BankId) (l x : Nat) (rest : List Event) : Prop where
  loaded : ∀ j, j < l → t.limb bk j = ldvWord x j
  written : ∀ j, j < l → t.isWritten bk j = true
  above : ∀ j, l ≤ j → t.limb bk j = s.limb bk j
  schedule : t.schedule = rest
  outputs : t.outputs = s.outputs
  idle : t.busy = false

/-- The write of limb l takes LDV from l writes to l + 1. -/
theorem State.LdvDone.succ {s t : State} {bk : BankId} {l x : Nat} {rest : List Event} (hres : bk ≠ .res)
    (hl : l < 16) {ev : List Event} (h : s.LdvDone t bk l x ev) :
    s.LdvDone (((t.withSchedule rest).setLimb bk l (ldvWord x l)).respond .writeDone) bk (l + 1) x rest where
  loaded j hj := by
    by_cases hlast : j = l
    · subst hlast
      exact limb_setLimb_same (t.withSchedule rest) bk hl _
    · exact (limb_setLimb_other (t.withSchedule rest) (.inr hlast) _).trans (h.loaded j (by omega))
  written j hj := by
    by_cases hlast : j = l
    · subst hlast
      exact isWritten_setLimb_same (t.withSchedule rest) bk hl _
    · exact (isWritten_setLimb_other (t.withSchedule rest) (.inr hlast) _).trans (h.written j (by omega))
  above j hj := (limb_setLimb_other (t.withSchedule rest) (.inr (by omega)) _).trans (h.above j (by omega))
  schedule := by simp [State.setLimb]
  outputs := (outputs_setLimb (t.withSchedule rest) hres l _).trans h.outputs
  idle := by simp [h.idle]

/-- The l writes of LDV run in l steps. -/
theorem run_asmLdv {s : State} (hidle : s.busy = false) {bk : BankId} (hres : bk ≠ .res) (x : Nat) {l : Nat}
    (hl : l ≤ 16) (rest : List Event) :
    ∃ t : State, Sys2Proof.core.run l (s.withSchedule (asmLdv bk l x ++ rest)) = .next t ∧ s.LdvDone t bk l x rest := by
  induction l generalizing rest with
  | zero => exact ⟨s.withSchedule rest, rfl, by simp, by simp, fun _ _ => rfl, rfl, rfl, hidle⟩
  | succ l ih =>
    obtain ⟨t, hrun, h⟩ := ih (by omega) (asmWriteAt (bk.base + 8 * l) (ldvWord x l) :: rest)
    have hstep := step_writeLimb h.idle hres ⟨l, hl⟩ (ldvWord x l) rest
    rw [← h.schedule, withSchedule_self] at hstep
    exact ⟨_, asmLdv_succ bk l x rest ▸ (run_succ_last hrun).trans hstep, h.succ hres hl⟩

/-- Settles O59: the limbs that the writes leave are those of the limb vector. -/
theorem ldvLoadsLimbVector : Obligations.LdvLoadsLimbVector := by
  intro s bk l x rest hres hl hidle
  obtain ⟨t, hrun, h⟩ := run_asmLdv hidle hres x hl rest
  refine ⟨t, hrun, ?_, h.written, h.above, h.schedule, h.outputs, h.idle⟩
  rw [vecL_eq_map]
  exact List.map_congr_left fun j hj => h.loaded j (List.mem_range.1 hj)

end Sys2Proof.Machine
end

section
/-! PROOFS. The Montgomery core (spec/40_montmul.md): exact column sums, the exact product that each multiply-accumulate adds, and the bounds between rows. -/

namespace Sys2Proof.Machine

/-! ### Column sums -/

theorem radix_succ (l : Nat) : radix (l + 1) = 2 ^ 64 * radix l := by
  rw [radix, radix, Nat.mul_succ, pow_add, Nat.mul_comm]

/-- A column sum fits in 128 bits (R112). -/
theorem mac_lt (t x y c : Word) : mac t x y c < 2 ^ 128 := by
  have hprod : x.toNat * y.toNat ≤ (2 ^ 64 - 1) * (2 ^ 64 - 1) :=
    Nat.mul_le_mul (Nat.le_pred_of_lt x.isLt) (Nat.le_pred_of_lt y.isLt)
  have ht := t.isLt
  have hc := c.isLt
  rw [mac]
  omega

/-- Splitting a sum of at most 128 bits loses nothing (R11). -/
theorem hi64_lo64 {s : Nat} (h : s < 2 ^ 128) : 2 ^ 64 * (hi64 s).toNat + (lo64 s).toNat = s := by
  simp only [hi64, lo64, BitVec.toNat_ofNat]
  omega

/-- Settles O8: the largest column sum is exactly 2^128 - 1. -/
theorem columnSumsSplitExactly : Obligations.ColumnSumsSplitExactly := by
  intro t x y c
  have htop : t.toNat + c.toNat < 2 ^ 65 := by omega
  exact ⟨mac_lt t x y c, htop, hi64_lo64 (mac_lt t x y c), hi64_lo64 (htop.trans (by decide))⟩

/-! ### Multiply-accumulate -/

/-- The column loop adds the exact product; what leaves the last column is its carry (R102, R104). -/
theorem val_macRow {ts ys : Limbs} (hlen : ts.length = ys.length) (x c : Word) :
    val (macRow ts x ys c).1 + radix ts.length * (macRow ts x ys c).2.toNat = val ts + x.toNat * val ys + c.toNat := by
  induction ts generalizing ys c with
  | nil =>
    obtain rfl := List.length_eq_zero_iff.1 hlen.symm
    simp [macRow, radix]
  | cons t ts ih =>
    cases ys with
    | nil => cases hlen
    | cons y ys =>
      have hrow := ih (Nat.succ.inj hlen) (hi64 (mac t x y c))
      have hcol := hi64_lo64 (mac_lt t x y c)
      have hmac : mac t x y c = t.toNat + x.toNat * y.toNat + c.toNat := rfl
      simp only [macRow, val_cons, List.length_cons, radix_succ]
      linear_combination 2 ^ 64 * hrow + hcol + hmac

/-- A multiply-accumulate adds the exact product while ACC[L+1] has room for a carry (R102, R104, R111). -/
theorem addMul_value {acc : Acc} {ys : Limbs} (hlen : ys.length = acc.limbs.length) (hroom : acc.overflow.toNat ≤ 1)
    (x : Word) : (acc.addMul x ys).value = acc.value + x.toNat * val ys := by
  have hrow : _ = val acc.limbs + x.toNat * val ys := val_macRow hlen.symm x 0
  have hlt : acc.top.toNat + (macRow acc.limbs x ys 0).2.toNat < 2 ^ 65 := by omega
  have htop := hi64_lo64 (hlt.trans (by decide))
  have hcarry : (acc.overflow + hi64 (acc.top.toNat + (macRow acc.limbs x ys 0).2.toNat)).toNat
      = acc.overflow.toNat + (hi64 (acc.top.toNat + (macRow acc.limbs x ys 0).2.toNat)).toNat := by
    rw [BitVec.toNat_add]
    omega
  have hwidth : (acc.addMul x ys).limbs.length = acc.limbs.length := by simp [hlen]
  rw [Acc.value, Acc.value, hwidth, radix_succ]
  simp only [Acc.addMul, hcarry]
  linear_combination hrow + radix acc.limbs.length * htop

/-- The low word after a multiply-accumulate, modulo 2^64. -/
theorem addMul_low {acc : Acc} {ys : Limbs} (hlen : ys.length = acc.limbs.length) (x : Word) :
    (acc.addMul x ys).limbs.headD 0 = acc.limbs.headD 0 + x * ys.headD 0 := by
  rcases acc with ⟨_ | ⟨t, ts⟩, top, overflow⟩
  · obtain rfl := List.length_eq_zero_iff.1 hlen
    simp [Acc.addMul, macRow]
  · cases ys with
    | nil => cases hlen
    | cons y ys =>
      apply BitVec.eq_of_toNat_eq
      simp [Acc.addMul, macRow, mac, lo64]

/-- The reduction multiplier clears the low word when n0 is correct (R103, R104). -/
theorem addMul_reductionMultiplier_low {n0 : Word} {n : Limbs} (hn0 : n0Correct n0 n = true) {acc : Acc}
    (hlen : n.length = acc.limbs.length) : (acc.addMul (reductionMultiplier n0 acc) n).limbs.headD 0 = 0 := by
  have hinv : n0 * n.headD 0 = -1 := by
    simpa [n0Correct, BitVec.neg_one_eq_allOnes] using hn0
  rw [addMul_low hlen, reductionMultiplier]
  linear_combination acc.limbs.headD 0 * hinv

/-- ACC[L+1] is at most 1 where the value is below 2·2^(64·(L+1)) (R111). -/
theorem overflow_le_one {acc : Acc} (h : acc.value < 2 * radix (acc.limbs.length + 1)) : acc.overflow.toNat ≤ 1 := by
  refine Nat.le_of_lt_succ (lt_of_mul_lt_mul_left (a := radix (acc.limbs.length + 1)) ?_ (Nat.zero_le _))
  rw [Nat.mul_comm _ 2]
  exact (Nat.le_add_left _ _).trans_lt h

/-! ### The shift -/

/-- Shifting out a low word of 0 divides the value by 2^64 (R105). -/
theorem shift_value {acc : Acc} (hpos : 0 < acc.limbs.length) (hlow : acc.limbs.headD 0 = 0) :
    acc.value = 2 ^ 64 * acc.shift.value := by
  rcases acc with ⟨_ | ⟨t, ts⟩, top, overflow⟩
  · cases hpos
  · obtain rfl : t = 0 := hlow
    simp only [Acc.value, Acc.shift, List.tail_cons, val_append, val_cons, val_nil, List.length_append,
      List.length_cons, List.length_nil, radix_succ, show (0 : Word).toNat = 0 from rfl]
    ring

theorem shift_length {acc : Acc} (hpos : 0 < acc.limbs.length) : acc.shift.limbs.length = acc.limbs.length := by
  simp only [Acc.shift, List.length_append, List.length_tail, List.length_singleton]
  omega

/-! ### One row -/

/-- Steps 2 and 3 of a row (R103, R104): add the multiple of n that clears the low word. -/
def Acc.reduce (n0 : Word) (n : Limbs) (acc : Acc) : Acc := acc.addMul (reductionMultiplier n0 acc) n

theorem ciosRow_eq (n0 : Word) (n b : Limbs) (acc : Acc) (ai : Word) :
    ciosRow n0 n b acc ai = ((acc.addMul ai b).reduce n0 n).shift := rfl

/-- The accumulator as R111 has it between rows: as wide as n, its value below 2n, ACC[L] at most 1 and ACC[L+1] = 0. -/
structure Acc.BetweenRows (n : Limbs) (acc : Acc) : Prop where
  width : acc.limbs.length = n.length
  below : acc.value < 2 * val n
  top : acc.top.toNat ≤ 1
  overflow : acc.overflow = 0

/-- An odd modulus has at least one limb. -/
theorem length_pos_of_odd {n : Limbs} (hodd : modulusOdd n = true) : 0 < n.length := by
  cases n with
  | nil => cases hodd
  | cons => exact Nat.succ_pos _

@[simp] theorem val_replicate_zero (l : Nat) : val (List.replicate l 0#64) = 0 := by
  induction l with
  | zero => rfl
  | succ l ih => simp [List.replicate_succ, ih]

/-- The accumulator starts at 0 (R101). -/
theorem zero_value (l : Nat) : (Acc.zero l).value = 0 := by
  simp [Acc.zero, Acc.value]

/-- A product begins with the accumulator as it is between rows (R101). -/
theorem zero_betweenRows {n : Limbs} (hpos : 0 < val n) : (Acc.zero n.length).BetweenRows n where
  width := by simp [Acc.zero]
  below := by rw [zero_value]; omega
  top := Nat.zero_le 1
  overflow := rfl

/-- What the steps of a row add stays below this multiple of n. -/
theorem word_mul_le (x : Word) {k m : Nat} (h : k ≤ m) : x.toNat * k ≤ (2 ^ 64 - 1) * m :=
  Nat.mul_le_mul (Nat.le_pred_of_lt x.isLt) h

section
variable {n0 : Word} {n b : Limbs} (hb : b.length = n.length) {acc : Acc} (h : acc.BetweenRows n) (ai : Word)
include hb h

/-- Step 1 of a row adds a_i·b and loses no carry (R111). -/
theorem added_value : (acc.addMul ai b).value = acc.value + ai.toNat * val b :=
  addMul_value (hb.trans h.width.symm) (by simp [h.overflow]) ai

theorem added_length : (acc.addMul ai b).limbs.length = n.length := by
  simp [h.width, hb]

theorem reduced_length : ((acc.addMul ai b).reduce n0 n).limbs.length = n.length := by
  simp [Acc.reduce, h.width, hb]

/-- Step 3 of a row clears the low word (R104). -/
theorem reduced_low (hn0 : n0Correct n0 n = true) : ((acc.addMul ai b).reduce n0 n).limbs.headD 0 = 0 :=
  addMul_reductionMultiplier_low hn0 (added_length hb h ai).symm

/-- The shift at the end of a row is exact (R105). -/
theorem ciosRow_value (hodd : modulusOdd n = true) (hn0 : n0Correct n0 n = true) :
    ((acc.addMul ai b).reduce n0 n).value = 2 ^ 64 * (ciosRow n0 n b acc ai).value :=
  shift_value ((length_pos_of_odd hodd).trans_eq (reduced_length hb h ai).symm) (reduced_low hb h ai hn0)

variable (hlt : val b < val n)
include hlt

/-- Step 1 of a row leaves ACC[L+1] at most 1 (R111). -/
theorem added_overflow : (acc.addMul ai b).overflow.toNat ≤ 1 := by
  apply overflow_le_one
  have hstep := word_mul_le ai hlt.le
  have hn := val_lt_radix n
  have hbelow := h.below
  rw [added_value hb h, added_length hb h, radix_succ]
  omega

/-- Step 3 of a row adds m·n and loses no carry (R111). -/
theorem reduced_value : ((acc.addMul ai b).reduce n0 n).value
    = (acc.addMul ai b).value + (reductionMultiplier n0 (acc.addMul ai b)).toNat * val n :=
  addMul_value (added_length hb h ai).symm (added_overflow hb h ai hlt) _

/-- The bound that the shift takes back below 2n: 2n + (2^64 - 1)·n + (2^64 - 1)·n is 2^64·2n. -/
theorem reduced_value_lt : ((acc.addMul ai b).reduce n0 n).value < 2 ^ 64 * (2 * val n) := by
  have hstep1 := word_mul_le ai hlt.le
  have hstep3 := word_mul_le (reductionMultiplier n0 (acc.addMul ai b)) (le_refl (val n))
  have hbelow := h.below
  rw [reduced_value hb h ai hlt, added_value hb h]
  omega

/-- Step 3 of a row leaves ACC[L+1] at most 1 (R111). -/
theorem reduced_overflow : ((acc.addMul ai b).reduce n0 n).overflow.toNat ≤ 1 := by
  apply overflow_le_one
  have hbound := reduced_value_lt (n0 := n0) hb h ai hlt
  have hn := val_lt_radix n
  rw [reduced_length hb h, radix_succ]
  omega

variable (hodd : modulusOdd n = true) (hn0 : n0Correct n0 n = true)
include hodd hn0

/-- A row keeps the accumulator as R111 has it between rows. -/
theorem ciosRow_betweenRows : (ciosRow n0 n b acc ai).BetweenRows n where
  width := ciosRow_length n0 ai hb (length_pos_of_odd hodd) h.width
  below := lt_of_mul_lt_mul_left (ciosRow_value hb h ai hodd hn0 ▸ reduced_value_lt hb h ai hlt) (Nat.zero_le _)
  top := reduced_overflow hb h ai hlt
  overflow := rfl

/-- A row adds a_i·b and divides by 2^64 modulo n. -/
theorem ciosRow_modEq : 2 ^ 64 * (ciosRow n0 n b acc ai).value ≡ acc.value + ai.toNat * val b [MOD val n] := by
  rw [← ciosRow_value hb h ai hodd hn0, reduced_value hb h ai hlt, added_value hb h]
  exact Nat.add_mul_modulus_modEq_iff.2 rfl

end

/-! ### All rows -/

section
variable {n0 : Word} {n b : Limbs} (hodd : modulusOdd n = true) (hn0 : n0Correct n0 n = true)
  (hb : b.length = n.length) (hlt : val b < val n)
include hodd hn0 hb hlt

theorem rows_betweenRows (a : Limbs) {acc : Acc} (h : acc.BetweenRows n) :
    (a.foldl (ciosRow n0 n b) acc).BetweenRows n := by
  induction a generalizing acc with
  | nil => exact h
  | cons ai a ih => exact ih (ciosRow_betweenRows hb h ai hlt hodd hn0)

/-- The rows of a add a·b and divide by 2^64 once for each limb of a, modulo n. -/
theorem rows_modEq (a : Limbs) {acc : Acc} (h : acc.BetweenRows n) :
    radix a.length * (a.foldl (ciosRow n0 n b) acc).value ≡ acc.value + val a * val b [MOD val n] := by
  induction a generalizing acc with
  | nil => simp [radix, Nat.ModEq]
  | cons ai a ih =>
    have hrest := (ih (ciosRow_betweenRows hb h ai hlt hodd hn0)).mul_left (2 ^ 64)
    have hrow := (ciosRow_modEq hb h ai hlt hodd hn0).add_right (2 ^ 64 * (val a * val b))
    rw [List.foldl_cons, List.length_cons, radix_succ, val_cons]
    calc 2 ^ 64 * radix a.length * (a.foldl (ciosRow n0 n b) (ciosRow n0 n b acc ai)).value
        ≡ 2 ^ 64 * (ciosRow n0 n b acc ai).value + 2 ^ 64 * (val a * val b) [MOD val n] := by
          rwa [Nat.mul_assoc, ← Nat.mul_add]
      _ ≡ acc.value + ai.toNat * val b + 2 ^ 64 * (val a * val b) [MOD val n] := hrow
      _ = acc.value + (ai.toNat + 2 ^ 64 * val a) * val b := by ring

end

/-- Settles O9: one lemma for each step of a row, and the induction over the rows. -/
theorem ciosRowCarryBounds : Obligations.CiosRowCarryBounds := by
  intro n0 n b hodd hn0 hb hlt
  refine ⟨fun acc ai hwidth hbelow htop hoverflow => ?_, fun a => ?_⟩
  · have h : acc.BetweenRows n := ⟨hwidth, hbelow, htop, hoverflow⟩
    have hrow := ciosRow_betweenRows hb h ai hlt hodd hn0
    exact ⟨added_value hb h ai, added_overflow hb h ai hlt, reduced_value hb h ai hlt, reduced_overflow hb h ai hlt,
      reduced_low hb h ai hn0, rfl, ciosRow_value hb h ai hodd hn0, hrow.width, hrow.below, hrow.top,
      hrow.overflow⟩
  · have hrows := rows_betweenRows hodd hn0 hb hlt a (zero_betweenRows (Nat.zero_lt_of_lt hlt))
    exact ⟨hrows.below, hrows.top, hrows.overflow⟩

end Sys2Proof.Machine
end

section
/-! PROOFS. The conditional subtraction, the function MM and MONTMUL (spec/40_montmul.md R108 to R121). -/

namespace Sys2Proof.Machine

/-! ### The comparison and the subtraction -/

/-- Values of one more limb compare by the top limbs first. -/
theorem add_mul_le_add_mul_iff {r x y p q : Nat} (hp : p < r) (hq : q < r) :
    q + r * y ≤ p + r * x ↔ y < x ∨ y = x ∧ q ≤ p := by
  rcases lt_trichotomy y x with hlt | rfl | hgt
  · have hr : r * (y + 1) ≤ r * x := Nat.mul_le_mul_left r hlt
    rw [Nat.mul_succ] at hr
    omega
  · omega
  · have hr : r * (x + 1) ≤ r * y := Nat.mul_le_mul_left r hgt
    rw [Nat.mul_succ] at hr
    omega

/-- The comparison of limbs, most significant first, is the comparison of values (R108). -/
theorem geMsf_iff {xs ys : Limbs} (hlen : xs.length = ys.length) :
    geMsf xs ys = true ↔ val ys.reverse ≤ val xs.reverse := by
  induction xs generalizing ys with
  | nil =>
    obtain rfl := List.length_eq_zero_iff.1 hlen.symm
    simp [geMsf]
  | cons x xs ih =>
    cases ys with
    | nil => cases hlen
    | cons y ys =>
      have hlen := Nat.succ.inj hlen
      have hx : val xs.reverse < radix xs.length := by simpa using val_lt_radix xs.reverse
      have hy : val ys.reverse < radix xs.length := by simpa [hlen] using val_lt_radix ys.reverse
      simp only [geMsf, List.reverse_cons, val_append, val_cons, val_nil, List.length_reverse, ← hlen,
        Nat.mul_zero, Nat.add_zero, add_mul_le_add_mul_iff hx hy, ← ih hlen]
      split_ifs with hgt hless
      · exact iff_of_true rfl (.inl hgt)
      · exact iff_of_false not_false (by omega)
      · simp [show y.toNat = x.toNat by omega]

/-- With ACC[L+1] = 0, ACC[L] sits just above the limbs. -/
theorem value_of_overflow {acc : Acc} (h : acc.overflow = 0) :
    acc.value = val acc.limbs + radix acc.limbs.length * acc.top.toNat := by
  simp [Acc.value, h]

/-- The comparison result is the comparison of values, ACC[L] included (R108). -/
theorem accGe_iff {acc : Acc} {n : Limbs} (hlen : acc.limbs.length = n.length) (hover : acc.overflow = 0) :
    accGe acc n = true ↔ val n ≤ acc.value := by
  rw [value_of_overflow hover, accGe]
  split
  case isTrue htop =>
    have hpos : 1 ≤ acc.top.toNat := Nat.one_le_iff_ne_zero.2 fun h => htop (BitVec.eq_of_toNat_eq h)
    have hn : val n < radix acc.limbs.length := hlen ▸ val_lt_radix n
    have hradix : radix acc.limbs.length ≤ radix acc.limbs.length * acc.top.toNat := Nat.le_mul_of_pos_right _ hpos
    simp only [true_iff]
    omega
  case isFalse htop =>
    have htop : acc.top = 0 := not_not.1 htop
    rw [geMsf_iff (by simpa using hlen), List.reverse_reverse, List.reverse_reverse, htop]
    simp

/-- One limb of the subtraction: the borrow out makes the difference exact (R109). -/
theorem subBorrow_limb {x y : Word} {borrow : Bool} {d : Int} (hd : d = (x.toNat : Int) - y.toNat - borrow.toNat) :
    (BitVec.ofInt 64 d).toNat + y.toNat + borrow.toNat = x.toNat + 2 ^ 64 * (decide (d < 0)).toNat := by
  have hborrow := borrow.toNat_le
  rw [BitVec.toNat_ofInt]
  by_cases hneg : d < 0
  · simp only [hneg, decide_true, Bool.toNat_true]
    omega
  · simp only [hneg, decide_false, Bool.toNat_false]
    omega

/-- Subtraction with borrow is exact up to a borrow out of the last limb (R109). -/
theorem val_subBorrow {xs ys : Limbs} (hlen : xs.length = ys.length) (borrow : Bool) :
    ∃ k, val (subBorrow xs ys borrow) + val ys + borrow.toNat = val xs + radix xs.length * k := by
  induction xs generalizing ys borrow with
  | nil =>
    obtain rfl := List.length_eq_zero_iff.1 hlen.symm
    exact ⟨borrow.toNat, by simp [subBorrow, radix]⟩
  | cons x xs ih =>
    cases ys with
    | nil => cases hlen
    | cons y ys =>
      obtain ⟨k, hk⟩ := ih (Nat.succ.inj hlen) (decide ((x.toNat : Int) - y.toNat - borrow.toNat < 0))
      have hlimb := subBorrow_limb (x := x) (y := y) (borrow := borrow) rfl
      refine ⟨k, ?_⟩
      simp only [subBorrow, val_cons, List.length_cons, radix_succ]
      linear_combination 2 ^ 64 * hk + hlimb

/-- The subtraction gives the difference where that fits in the limbs: the last borrow cancels ACC[L] (R109). -/
theorem val_subBorrow_acc {acc : Acc} {n : Limbs} (hlen : acc.limbs.length = n.length) (hover : acc.overflow = 0)
    (hge : val n ≤ acc.value) (hlt : acc.value < 2 * val n) :
    val (subBorrow acc.limbs n false) = acc.value - val n := by
  obtain ⟨k, hk⟩ := val_subBorrow hlen false
  have hresult := val_lt_radix (subBorrow acc.limbs n false)
  rw [subBorrow_length, hlen, Nat.min_self] at hresult
  have hn := val_lt_radix n
  refine Nat.ModEq.eq_of_lt_of_lt (m := radix n.length) (Nat.ModEq.add_right_cancel' (val n) ?_) hresult (by omega)
  calc val (subBorrow acc.limbs n false) + val n
      = val acc.limbs + radix n.length * k := by simpa [hlen] using hk
    _ ≡ val acc.limbs [MOD radix n.length] := Nat.add_modulus_mul_modEq_iff.2 rfl
    _ ≡ val acc.limbs + radix n.length * acc.top.toNat [MOD radix n.length] :=
      (Nat.add_modulus_mul_modEq_iff.2 rfl).symm
    _ = acc.value - val n + val n := by rw [Nat.sub_add_cancel hge, value_of_overflow hover, hlen]

/-- The conditional subtraction reduces a value below 2n modulo n (R108, R109). -/
theorem val_condSub {acc : Acc} {n : Limbs} (hlen : acc.limbs.length = n.length) (hover : acc.overflow = 0)
    (hlt : acc.value < 2 * val n) : val (condSub acc n) = acc.value % val n := by
  rw [condSub]
  split
  case isTrue hge =>
    have hge := (accGe_iff hlen hover).1 hge
    rw [val_subBorrow_acc hlen hover hge hlt, Nat.mod_eq_sub_mod hge, Nat.mod_eq_of_lt (by omega)]
  case isFalse hge =>
    have hless : acc.value < val n := Nat.lt_of_not_le fun h => hge ((accGe_iff hlen hover).2 h)
    have htop : acc.top = 0 := by
      by_contra htop
      exact hge (if_pos htop)
    rw [Nat.mod_eq_of_lt hless, value_of_overflow hover, htop]
    simp

theorem condSub_length {acc : Acc} {n : Limbs} (hlen : acc.limbs.length = n.length) :
    (condSub acc n).length = n.length := by
  rw [condSub]
  split <;> simp [hlen]

/-- Settles O10: the law of the comparison, and the subtraction it decides. -/
theorem conditionalSubtractionReduces : Obligations.ConditionalSubtractionReduces :=
  fun _ _ hlen hover => ⟨accGe_iff hlen hover, fun hlt => ⟨val_condSub hlen hover hlt, condSub_length hlen⟩⟩

/-! ### The function MM -/

/-- An odd modulus has an odd value. -/
theorem val_odd {n : Limbs} (hodd : modulusOdd n = true) : Odd (val n) := by
  cases n with
  | nil => cases hodd
  | cons w ws =>
    have hbit : w.toNat % 2 = 1 := by
      simpa [modulusOdd, BitVec.getLsbD, Nat.testBit_zero] using hodd
    rw [Nat.odd_iff, val_cons]
    omega

/-- R and an odd modulus are coprime. -/
theorem radix_coprime {n : Limbs} (hodd : modulusOdd n = true) (l : Nat) : Nat.Coprime (radix l) (val n) :=
  Nat.Coprime.pow_left _ (Nat.coprime_two_left.2 (val_odd hodd))

section
variable {n0 : Word} {n b : Limbs} (hodd : modulusOdd n = true) (hn0 : n0Correct n0 n = true)
  (hb : b.length = n.length) (hlt : val b < val n)
include hodd hn0 hb hlt

/-- MM is the accumulator after all rows, reduced modulo n (R110, R111). -/
theorem val_mm (a : Limbs) : val (mm n0 n a b) = (a.foldl (ciosRow n0 n b) (Acc.zero n.length)).value % val n :=
  have hrows := rows_betweenRows hodd hn0 hb hlt a (zero_betweenRows (Nat.zero_lt_of_lt hlt))
  val_condSub hrows.width hrows.overflow hrows.below

theorem val_mm_lt (a : Limbs) : val (mm n0 n a b) < val n := by
  rw [val_mm hodd hn0 hb hlt]
  exact Nat.mod_lt _ (Nat.zero_lt_of_lt hlt)

/-- R times MM(a, b) is a·b modulo n (R114). That a is below n is not needed. -/
theorem radix_mul_val_mm {a : Limbs} (ha : a.length = n.length) :
    radix n.length * val (mm n0 n a b) ≡ val a * val b [MOD val n] := by
  have hrows := rows_modEq hodd hn0 hb hlt a (zero_betweenRows (Nat.zero_lt_of_lt hlt))
  rw [zero_value, Nat.zero_add, ha] at hrows
  rw [val_mm hodd hn0 hb hlt]
  exact ((Nat.mod_modEq _ _).mul_left _).trans hrows

/-- Where a·b is R·r modulo n, MM(a, b) is r modulo n. -/
theorem val_mm_modEq {a : Limbs} (ha : a.length = n.length) {r : Nat}
    (h : val a * val b ≡ radix n.length * r [MOD val n]) :
    val (mm n0 n a b) ≡ r [MOD val n] :=
  Nat.ModEq.cancel_left_of_coprime (radix_coprime hodd n.length).symm
    ((radix_mul_val_mm hodd hn0 hb hlt ha).trans h)

end

/-- What the contract of MM says (R113). -/
theorem mmInContract_iff {n0 : Word} {n a b : Limbs} : mmInContract n0 n a b = true ↔
    modulusOdd n = true ∧ n0Correct n0 n = true ∧ val a < val n ∧ val b < val n := by
  simp [mmInContract, and_assoc]

/-- Settles O11: a·b is R times a·b·R⁻¹ modulo n. -/
theorem montgomeryProductInContract : Obligations.MontgomeryProductInContract := by
  intro n0 n a b ha hb hcontract
  obtain ⟨hodd, hn0, -, hlt⟩ := mmInContract_iff.1 hcontract
  have hpos := Nat.ne_zero_of_lt hlt
  have hbound := val_mm_lt hodd hn0 hb hlt a
  refine ⟨?_, fun rInv hinv => ⟨?_, hbound, mm_length n0 a hb (length_pos_of_odd hodd)⟩⟩
  · obtain ⟨rInv, -, hinv⟩ := Nat.exists_mul_mod_eq_of_coprime 1 (radix_coprime hodd n.length) hpos
    exact ⟨rInv, hinv⟩
  · rw [← Nat.mod_eq_of_lt hbound]
    apply val_mm_modEq hodd hn0 hb hlt ha
    change radix n.length * rInv ≡ 1 [MOD val n] at hinv
    calc val a * val b = val a * val b * 1 := (Nat.mul_one _).symm
      _ ≡ val a * val b * (radix n.length * rInv) [MOD val n] := hinv.symm.mul_left _
      _ = radix n.length * (val a * val b * rInv) := by ring

@[simp] theorem oneL_length (l : Nat) : (oneL l).length = l := vecL_length l 1

theorem val_oneL {l : Nat} (hl : 0 < l) : val (oneL l) = 1 := by
  rw [oneL, val_vecL, Nat.mod_eq_of_lt]
  exact Nat.one_lt_two_pow (by omega)

/-- A value below n is that of its limb vector. -/
theorem val_vecL_of_lt {n : Limbs} {x : Nat} (h : x < val n) : val (vecL n.length x) = x := by
  rw [val_vecL, Nat.mod_eq_of_lt (h.trans (val_lt_radix n))]

/-- The product with R² mod n takes a value into the Montgomery domain (R118). -/
theorem val_mm_rr {n0 : Word} {n x rr : Limbs} (hodd : modulusOdd n = true) (hn0 : n0Correct n0 n = true)
    (hx : x.length = n.length) (hrr : rr.length = n.length) (hlt : val rr < val n)
    (hval : val rr ≡ radix n.length * radix n.length [MOD val n]) :
    val (mm n0 n x rr) ≡ radix n.length * val x [MOD val n] := by
  apply val_mm_modEq hodd hn0 hrr hlt hx
  calc val x * val rr ≡ val x * (radix n.length * radix n.length) [MOD val n] := hval.mul_left _
    _ = radix n.length * (radix n.length * val x) := by ring

/-- The product with one_L takes a value out of the Montgomery domain (R118). -/
theorem val_mm_oneL {n0 : Word} {n y : Limbs} (hodd : modulusOdd n = true) (hn0 : n0Correct n0 n = true)
    (hone : 1 < val n) (hy : y.length = n.length) {r : Nat} (h : val y ≡ radix n.length * r [MOD val n]) :
    val (mm n0 n y (oneL n.length)) ≡ r [MOD val n] := by
  have hval := val_oneL (length_pos_of_odd hodd)
  apply val_mm_modEq hodd hn0 (oneL_length _) (hval.trans_lt hone) hy
  rwa [hval, Nat.mul_one]

/-- Settles O12: the first product is x·R modulo n, and the second takes the factor R away. -/
theorem montgomeryRoundTrip : Obligations.MontgomeryRoundTrip := by
  intro n0 n x hx hodd hn0 hone hlt
  have hpos := length_pos_of_odd hodd
  have hmod := Nat.mod_lt (radix n.length * radix n.length) (Nat.zero_lt_of_lt hlt)
  have hrr := val_vecL_of_lt hmod
  have hin := val_mm_rr hodd hn0 hx (vecL_length _ _) (hrr.trans_lt hmod) (by rw [hrr]; exact Nat.mod_modEq _ _)
  have hout := val_mm_oneL hodd hn0 hone (mm_length n0 x (vecL_length _ _) hpos) hin
  have hbound := val_mm_lt hodd hn0 (oneL_length _) ((val_oneL hpos).trans_lt hone)
  exact val_injective ((mm_length n0 _ (oneL_length _) hpos).trans hx.symm) (hout.eq_of_lt_of_lt (hbound _) hlt)

/-! ### MONTMUL -/

/-- Reading RES after a result of width `l` was written gives the result. -/
theorem limbs_of_bankRes {t : State} {r : Limbs} (ht : t.bankRes = Bank.ofResult r) {l : Nat} (hr : r.length = l)
    (hl : l ≤ 16) : t.limbs .res l = r := by
  refine List.ext_getElem ((limbs_length _ _ _).trans hr.symm) fun i hi hir => ?_
  have hil : i < l := hr ▸ hir
  simp [State.limbs, limb_of_bankRes ht (hil.trans_le hl), limbAt, hir]

/-- The modulus is odd at every width exactly when it is not even as EVEN_MODULUS has it (R113, R203). -/
theorem modulusOdd_limbs (s : State) {l : Nat} (hl : 1 ≤ l) : modulusOdd (s.limbs .n l) = !s.modulusEven := by
  have hlow : (s.limbs .n l).headD 0 = s.limb .n 0 := by
    rw [← limbAt_limbs s .n hl]
    cases s.limbs .n l <;> rfl
  rw [modulusOdd, hlow, State.modulusEven, Bool.not_not]

/-- MONTMUL with a legal limb count and an odd modulus writes its result, counts one multiplication and completes
without an error (R121). -/
theorem exec_montmul_odd {s : State} {l : Nat} (hl : effL Config.clampLcount s.internals.lcount = some l)
    (hodd : s.modulusEven = false) :
    ∃ t, exec .montmul s = .next t ∧ t.bankRes = Bank.ofResult (montmulResult l s) ∧
      t.opCountWord = 0x0000000100000000 ∧ t.expBits = s.expBits ∧ t.winK = s.winK ∧
      t.errCode = .none ∧ t.done = true ∧ t.busy = false := by
  refine ⟨montmulStep s, rfl, ?_⟩
  simp [montmulStep, hl, hodd, State.opCountWord]

/-- In contract, and with no operand write in flight, MONTMUL's result is MM (R110, R121). -/
theorem montmulResult_of_inContract {s : State} {l : Nat} (hflight : s.inFlight = false)
    (h : mmInContract s.n0 (s.limbs .n l) (s.limbs .a l) (s.limbs .b l) = true) :
    montmulResult l s = mm s.n0 (s.limbs .n l) (s.limbs .a l) (s.limbs .b l) := by
  simp [montmulResult, hflight, h]

/-- Out of contract, or with an operand write in flight, the limbs of MONTMUL's result are free values (R115, R246). -/
theorem limbAt_montmulResult_of_undefined {s : State} {l : Nat}
    (h : s.inFlight = true ∨ mmInContract s.n0 (s.limbs .n l) (s.limbs .a l) (s.limbs .b l) = false) {i : Nat}
    (hi : i < l) : limbAt (montmulResult l s) i
      = Config.undefinedLimb .montmul s.draws [[s.n0], s.limbs .n l, s.limbs .a l, s.limbs .b l] i := by
  have hcond : (!s.inFlight && mmInContract s.n0 (s.limbs .n l) (s.limbs .a l) (s.limbs .b l)) = false := by
    rcases h with h | h <;> simp [h]
  simp [montmulResult, hcond, limbAt, hi]

/-- Settles O13: in contract the modulus is odd, and the result written is MM. -/
theorem montmulInContractCompletes : Obligations.MontmulInContractCompletes := by
  intro s l hl hflight hcontract
  obtain ⟨hodd, hn0, -, hlt⟩ := mmInContract_iff.1 hcontract
  obtain ⟨hl1, hl16⟩ := effL_range hl
  have hnoteven : s.modulusEven = false := by simpa [modulusOdd_limbs s hl1] using hodd
  obtain ⟨t, ht, hres, hstatus⟩ := exec_montmul_odd hl hnoteven
  have hlen := montmulResult_length hl1 s
  obtain ⟨hwritten, hzero⟩ := res_whole hres hlen
  have hvalue := (limbs_of_bankRes hres hlen hl16).trans (montmulResult_of_inContract hflight hcontract)
  have hb : (s.limbs .b l).length = (s.limbs .n l).length := by simp
  have hproduct := radix_mul_val_mm hodd hn0 hb hlt (a := s.limbs .a l) (by simp)
  rw [limbs_length, ← hvalue] at hproduct
  exact ⟨t, ht, hvalue, hproduct, hvalue ▸ val_mm_lt hodd hn0 hb hlt _, hzero, hwritten, hstatus⟩

/-- Settles O14: the modulus is odd, and the result written is free values. -/
theorem montmulOutOfContractCompletes : Obligations.MontmulOutOfContractCompletes := by
  intro s l hl hodd hundefined
  obtain ⟨hl1, hl16⟩ := effL_range hl
  obtain ⟨t, ht, hres, hstatus⟩ := exec_montmul_odd hl hodd
  obtain ⟨hwritten, hzero⟩ := res_whole hres (montmulResult_length hl1 s)
  refine ⟨t, ht, fun i hi => ?_, hzero, hwritten, hstatus⟩
  rw [limb_of_bankRes hres (hi.trans_le hl16)]
  exact limbAt_montmulResult_of_undefined hundefined hi

end Sys2Proof.Machine
end

section
/-! PROOFS. The bit length of an exponent as that of its value, the window policy, and BITLEN
(spec/41_bitlen_window.md R140 to R145). -/

namespace Sys2Proof.Machine

/-! ### The window policy -/

/-- Settles O6: one clause for each branch of `selectK`. -/
theorem windowPolicyThresholds : Obligations.WindowPolicyThresholds := by
  intro expLen
  unfold selectK
  split_ifs <;> omega

/-! ### The bits of a limb vector -/

@[simp] theorem limbAt_nil (i : Nat) : limbAt [] i = 0 := rfl

@[simp] theorem limbAt_cons_zero (w : Word) (ws : Limbs) : limbAt (w :: ws) 0 = w := rfl

@[simp] theorem limbAt_cons_succ (w : Word) (ws : Limbs) (i : Nat) : limbAt (w :: ws) (i + 1) = limbAt ws i := rfl

/-- A bit of a limb vector is the bit of its value (R9). -/
theorem bitAt_eq_testBit (e : Limbs) (p : Nat) : bitAt e p = (val e).testBit p := by
  induction e generalizing p with
  | nil => simp [bitAt]
  | cons w ws ih =>
    rw [val_cons, Nat.add_comm, Nat.testBit_two_pow_mul_add _ w.isLt]
    split
    case isTrue hlow => simp [bitAt, Nat.div_eq_of_lt hlow, Nat.mod_eq_of_lt hlow, BitVec.getLsbD]
    case isFalse hhigh =>
      have hdiv : p / 64 = (p - 64) / 64 + 1 := by omega
      have hmod : p % 64 = (p - 64) % 64 := by omega
      rw [← ih, bitAt, bitAt, hdiv, hmod, limbAt_cons_succ]

/-- A limb vector has no 1 bit past its last limb. -/
theorem bitAt_of_length_le {e : Limbs} {p : Nat} (h : 64 * e.length ≤ p) : bitAt e p = false := by
  rw [bitAt_eq_testBit]
  exact Nat.testBit_lt_two_pow ((val_lt_radix e).trans_le (Nat.pow_le_pow_right (by decide) h))

/-! ### The bit length -/

/-- The scan depends on the limbs it reads alone (R140). -/
theorem bitLen_congr {e f : Limbs} {l : Nat} (h : ∀ i, i < l → limbAt e i = limbAt f i) : bitLen e l = bitLen f l := by
  induction l with
  | zero => rfl
  | succ li ih =>
    rw [bitLen, bitLen, h li li.lt_succ_self, ih fun i hi => h i (hi.trans li.lt_succ_self)]

/-- The scanned bits from the bit length up are 0 (R140). -/
theorem bitAt_of_bitLen_le {e : Limbs} {l p : Nat} (hlow : bitLen e l ≤ p) (hhigh : p < 64 * l) :
    bitAt e p = false := by
  induction l with
  | zero => omega
  | succ li ih =>
    rw [bitLen] at hlow
    split at hlow
    case isTrue hw =>
      have hlimb : p / 64 = li := by omega
      have hne : (limbAt e li).toNat ≠ 0 := fun h => hw (BitVec.eq_of_toNat_eq h)
      rw [bitAt, hlimb]
      exact Nat.testBit_lt_two_pow ((Nat.log2_lt hne).1 (by omega))
    case isFalse hw =>
      rcases Nat.lt_or_ge p (64 * li) with hp | hp
      · exact ih hlow hp
      · have hlimb : p / 64 = li := by omega
        rw [bitAt, hlimb, not_not.1 hw]
        simp

/-- The value of a limb vector lies below 2^E (R141). -/
theorem val_lt_two_pow_bitLen (e : Limbs) : val e < 2 ^ bitLen e e.length := by
  refine Nat.lt_pow_two_of_testBit _ fun p hp => ?_
  rw [← bitAt_eq_testBit]
  rcases Nat.lt_or_ge p (64 * e.length) with hin | hout
  · exact bitAt_of_bitLen_le hp hin
  · exact bitAt_of_length_le hout

/-- A bit length above 0 is witnessed by a value with that many bits (R141). -/
theorem two_pow_bitLen_pred_le {e : Limbs} {l : Nat} (h : 0 < bitLen e l) : 2 ^ (bitLen e l - 1) ≤ val e :=
  Nat.ge_two_pow_of_testBit ((bitAt_eq_testBit e _).symm.trans (bitAt_bitLen_pred h))

/-- The bit length is 0 exactly for the value 0 (R141). -/
theorem bitLen_eq_zero_iff (e : Limbs) : bitLen e e.length = 0 ↔ val e = 0 := by
  constructor
  · intro h
    simpa [h] using val_lt_two_pow_bitLen e
  · intro h
    by_contra hne
    have hge := two_pow_bitLen_pred_le (Nat.pos_of_ne_zero hne)
    have hpos := Nat.two_pow_pos (bitLen e e.length - 1)
    omega

theorem bitLen_pos {e : Limbs} (h : val e ≠ 0) : 0 < bitLen e e.length :=
  Nat.pos_of_ne_zero fun hz => h ((bitLen_eq_zero_iff e).1 hz)

/-- For a nonzero value the bit length is one more than the base-2 logarithm (R141). -/
theorem bitLen_eq_log2 {e : Limbs} (h : val e ≠ 0) : bitLen e e.length = Nat.log2 (val e) + 1 := by
  have hpos := bitLen_pos h
  have hlog : Nat.log2 (val e) = bitLen e e.length - 1 :=
    (Nat.log2_eq_iff h).2 ⟨two_pow_bitLen_pred_le hpos, by
      rw [Nat.sub_add_cancel hpos]
      exact val_lt_two_pow_bitLen e⟩
  omega

/-- Limbs past the scanned ones do not change the bit length (R140). -/
theorem bitLen_append (e more : Limbs) : bitLen (e ++ more) e.length = bitLen e e.length :=
  bitLen_congr fun i hi => by rw [limbAt, limbAt, List.getD_append _ _ _ _ hi]

/-- Settles O7: the value lies between 2^(E-1) and 2^E, which fixes its logarithm. -/
theorem bitLenLaws : Obligations.BitLenLaws := by
  intro e more
  refine ⟨bitLen_eq_zero_iff e, fun hne => ?_, val_lt_two_pow_bitLen e, bitLen_le e _, bitLen_append e more⟩
  exact ⟨bitLen_eq_log2 hne, two_pow_bitLen_pred_le (bitLen_pos hne), bitAt_bitLen_pred (bitLen_pos hne)⟩

/-! ### BITLEN -/

/-- EXPBITS reads back the bit length written to it, for at most 16 limbs (R27). -/
theorem expBitsWord_toNat {t : State} {e : Limbs} {l : Nat} (ht : t.expBits = BitVec.ofNat 11 (bitLen e l))
    (hl : l ≤ 16) : t.expBitsWord.toNat = bitLen e l := by
  have hlen := bitLen_le e l
  rw [State.expBitsWord, ht, BitVec.toNat_setWidth_of_le (by decide), BitVec.toNat_ofNat, Nat.mod_eq_of_lt (by omega)]

/-- WINK reads back the window width written to it (R28). -/
theorem winKWord_toNat {t : State} {k : Nat} (ht : t.winK = BitVec.ofNat 3 k) (hk : k ∈ [1, 3, 4, 5]) :
    t.winKWord.toNat = k := by
  rw [State.winKWord, ht]
  fin_cases hk <;> rfl

/-- BITLEN with a legal limb count and window selector writes the bit length and the width, clears OPCOUNT and
completes without an error (R145). -/
theorem exec_bitlen_legal {s : State} {l k : Nat} (hl : effL Config.clampLcount s.internals.lcount = some l)
    (hk : effK s.internals.ksel (bitLen (s.limbs .b l) l) = some k) :
    ∃ t, exec .bitlen s = .next t ∧ t.expBits = BitVec.ofNat 11 (bitLen (s.limbs .b l) l) ∧
      t.winK = BitVec.ofNat 3 k ∧ t.opCountWord = 0 ∧ t.errCode = .none ∧ t.done = true ∧ t.busy = false := by
  refine ⟨bitlenStep s, rfl, ?_⟩
  simp [bitlenStep, hl, hk, State.opCountWord]

/-- Settles O15: the two registers are wide enough for what BITLEN writes. -/
theorem bitlenCompletes : Obligations.BitlenCompletes := by
  intro s l k hl hk
  obtain ⟨t, ht, hexp, hwin, hops, hstatus⟩ := exec_bitlen_legal hl hk
  exact ⟨t, ht, expBitsWord_toNat hexp (effL_range hl).2, winKWord_toNat hwin (effK_range hk), hops,
    exec_bitlen_bankRes ht, hstatus⟩

end Sys2Proof.Machine
end

section
/-! PROOFS. What an exponentiation computes (spec/42_modexp.md R160 to R176). The driver adds exponents, whatever product
it is given: `isPow p x` stands for "x represents the p-th power of the base". The function MM is such a product, with
x in the Montgomery domain. -/

namespace Sys2Proof.Machine

/-! ### The window as a part of the exponent's value -/

/-- A word shifted right by all but its top `r` bits has at most `r` bits. -/
theorem word_shiftRight_lt (w : Word) {r : Nat} (hr : r ≤ 64) : w.toNat >>> (64 - r) < 2 ^ r := by
  rw [Nat.shiftRight_eq_div_pow]
  refine Nat.div_lt_of_lt_mul (w.isLt.trans_le ?_)
  rw [← pow_add, Nat.sub_add_cancel hr]

/-- Bit i of an extracted window, whether the window is read from one limb or from two (R165). -/
theorem extractWindow_testBit (e : Limbs) {pos len : Nat} (hlen : len ≤ 64) (hpos : len ≤ pos + 1) (i : Nat) :
    (extractWindow e pos len).testBit i = (decide (i < len) && bitAt e (pos + 1 - len + i)) := by
  unfold extractWindow bitAt
  simp only
  split
  case isTrue hone =>
    rw [Nat.testBit_mod_two_pow, Nat.testBit_shiftRight]
    by_cases hi : i < len
    case neg => simp [hi]
    case pos =>
      have hlimb : (pos + 1 - len + i) / 64 = pos / 64 := by omega
      have hbit : (pos + 1 - len + i) % 64 = pos % 64 + 1 - len + i := by omega
      rw [hlimb, hbit, BitVec.getLsbD]
  case isFalse hstraddle =>
    rw [Nat.mul_comm, Nat.testBit_two_pow_mul_add _ (word_shiftRight_lt _ (by omega))]
    split
    case isTrue hlow =>
      have hi : i < len := by omega
      have hlimb : (pos + 1 - len + i) / 64 = pos / 64 - 1 := by omega
      have hbit : (pos + 1 - len + i) % 64 = 64 - (len - (pos % 64 + 1)) + i := by omega
      rw [Nat.testBit_shiftRight, hlimb, hbit, BitVec.getLsbD, decide_eq_true hi, Bool.true_and]
    case isFalse hhigh =>
      have hin : i - (len - (pos % 64 + 1)) < pos % 64 + 1 ↔ i < len := by omega
      rw [Nat.testBit_mod_two_pow, decide_eq_decide.2 hin]
      by_cases hi : i < len
      case neg => simp [hi]
      case pos =>
        have hlimb : (pos + 1 - len + i) / 64 = pos / 64 := by omega
        have hbit : (pos + 1 - len + i) % 64 = i - (len - (pos % 64 + 1)) := by omega
        rw [hlimb, hbit, BitVec.getLsbD]

/-- An extracted window is the exponent's value shifted down to the window's lowest bit (R165). -/
theorem extractWindow_eq (e : Limbs) {pos len : Nat} (hlen : len ≤ 64) (hpos : len ≤ pos + 1) :
    extractWindow e pos len = val e / 2 ^ (pos + 1 - len) % 2 ^ len := by
  refine Nat.eq_of_testBit_eq fun i => ?_
  rw [extractWindow_testBit e hlen hpos, bitAt_eq_testBit, Nat.testBit_mod_two_pow, Nat.testBit_div_two_pow,
    Nat.add_comm i]

/-- Stripping zeros from a window shifts it by the number of bits stripped (R166). -/
theorem normalizeWindow_eq (len w : Nat) :
    (normalizeWindow len w).1 = w / 2 ^ (len - (normalizeWindow len w).2) := by
  induction len generalizing w with
  | zero => simp [normalizeWindow]
  | succ len ih =>
    simp only [normalizeWindow]
    split
    case isTrue heven =>
      rw [ih, Nat.div_div_eq_div_mul, ← pow_succ', ← Nat.sub_add_comm (normalizeWindow_le len _)]
    case isFalse => simp

/-- Stripping zeros from a nonzero window of at most `len` bits ends at an odd value (R166, R171 (a)). -/
theorem normalizeWindow_odd {len w : Nat} (hpos : 0 < w) (hlt : w < 2 ^ len) : (normalizeWindow len w).1 % 2 = 1 := by
  induction len generalizing w with
  | zero => omega
  | succ len ih =>
    simp only [normalizeWindow]
    split
    case isTrue heven =>
      rw [pow_succ] at hlt
      exact ih (by omega) (by omega)
    case isFalse hodd => exact Nat.mod_two_ne_zero.1 hodd

/-- A window owes at most its length in squarings (R165, R166). -/
theorem windowAt_nSq_le_len (e : Limbs) (k pos : Nat) : (windowAt e k pos).nSq ≤ min k (pos + 1) :=
  normalizeWindow_le _ _

section
variable (e : Limbs) {k : Nat} (hk : k ≤ 64) (pos : Nat)
include hk

/-- The value of a window is the exponent's part of the bits it consumes (R165, R166). -/
theorem windowAt_w : (windowAt e k pos).w
    = val e / 2 ^ (pos + 1 - (windowAt e k pos).nSq) % 2 ^ (windowAt e k pos).nSq := by
  have hlen : min k (pos + 1) ≤ 64 := (Nat.min_le_left _ _).trans hk
  have hpos : min k (pos + 1) ≤ pos + 1 := Nat.min_le_right _ _
  have hle := windowAt_nSq_le_len e k pos
  have hw : (windowAt e k pos).w
      = extractWindow e pos (min k (pos + 1)) / 2 ^ (min k (pos + 1) - (windowAt e k pos).nSq) := normalizeWindow_eq _ _
  generalize min k (pos + 1) = len at *
  have hshift : pos + 1 - len + (len - (windowAt e k pos).nSq) = pos + 1 - (windowAt e k pos).nSq := by omega
  rw [hw, extractWindow_eq e hlen hpos, ← Nat.pow_sub_mul_pow 2 hle, Nat.mod_mul_right_div_self,
    Nat.div_div_eq_div_mul, ← pow_add, hshift]

/-- The window at a 1 bit is odd (R171 (a)). -/
theorem windowAt_odd {pos : Nat} (hkpos : 0 < k) (hbit : bitAt e pos = true) : (windowAt e k pos).w % 2 = 1 := by
  have hlen : min k (pos + 1) ≤ 64 := (Nat.min_le_left _ _).trans hk
  have hmin : 0 < min k (pos + 1) := by omega
  refine normalizeWindow_odd ?_ ?_
  · have htop := (extractWindow_testBit_top e pos hmin).trans hbit
    exact (Nat.two_pow_pos _).trans_le (Nat.ge_two_pow_of_testBit htop)
  · rw [extractWindow_eq e hlen (Nat.min_le_right _ _)]
    exact Nat.mod_lt _ (Nat.two_pow_pos _)

/-- A window has at most k bits (R171 (a)). -/
theorem windowAt_w_lt : (windowAt e k pos).w < 2 ^ k := by
  have hnSq : (windowAt e k pos).nSq ≤ k := (windowAt_nSq_le_len e k pos).trans (Nat.min_le_left _ _)
  rw [windowAt_w e hk]
  exact (Nat.mod_lt _ (Nat.two_pow_pos _)).trans_le (Nat.pow_le_pow_right (by decide) hnSq)

/-- A window's entry lies in the table (R162, R171 (a)). -/
theorem windowAt_index_lt : ((windowAt e k pos).w - 1) / 2 < 2 ^ (k - 1) := by
  have hlt := windowAt_w_lt e hk pos
  cases k with
  | zero => omega
  | succ k =>
    rw [pow_succ] at hlt
    rw [Nat.add_sub_cancel]
    omega

/-- Consuming a window appends its value to the part of the exponent consumed so far (R167). -/
theorem consumed_window {left : Nat} (hleft : 0 < left) :
    val e / 2 ^ (left - (windowAt e k (left - 1)).nSq)
      = val e / 2 ^ left * 2 ^ (windowAt e k (left - 1)).nSq + (windowAt e k (left - 1)).w := by
  have hle := windowAt_nSq_le e k (left - 1)
  have hw := windowAt_w e hk (left - 1)
  rw [Nat.sub_add_cancel hleft] at hle hw
  conv_rhs => rw [hw, ← Nat.pow_sub_mul_pow 2 hle, ← Nat.div_div_eq_div_mul]
  rw [Nat.div_add_mod']

end

/-- Consuming a 0 bit doubles the part of the exponent consumed so far (R169). -/
theorem consumed_zero {e : Limbs} {pos : Nat} (h : bitAt e pos = false) :
    val e / 2 ^ pos = val e / 2 ^ (pos + 1) + val e / 2 ^ (pos + 1) := by
  have hbit : val e / 2 ^ pos % 2 = 0 := by
    rw [bitAt_eq_testBit, Nat.testBit_eq_decide_div_mod_eq] at h
    have hne := of_decide_eq_false h
    omega
  rw [pow_succ, ← Nat.div_div_eq_div_mul]
  omega

/-! ### The cursor -/

section
variable (mul : Limbs → Limbs → Limbs) (tbl : List Limbs)

/-- Applying a window moves the cursor past the bits it consumes (R167). -/
@[simp] theorem applyWindow_left (win : Window) (d : Scan) : (applyWindow mul tbl win d).left = d.left - win.nSq := by
  rw [applyWindow]
  split <;> rfl

/-- Applying a window clears the identity flag (R168). -/
@[simp] theorem applyWindow_isId (win : Window) (d : Scan) : (applyWindow mul tbl win d).isId = false := by
  rw [applyWindow]
  split
  case isTrue => rfl
  case isFalse hid => exact Bool.eq_false_iff.2 hid

/-- Coasting moves the cursor downward (R169). -/
theorem coast_left_le (e : Limbs) (left : Nat) (d : Scan) : (coast mul e left d).left ≤ left := by
  induction left generalizing d with
  | zero => rfl
  | succ pos ih =>
    rw [coast]
    split
    · rfl
    · exact (ih _).trans pos.le_succ

/-- A round at a 1 bit consumes at least that bit (R171). -/
theorem scanRound_left_lt {e : Limbs} {k : Nat} (hk : 0 < k) {d : Scan} (hleft : 0 < d.left)
    (hbit : bitAt e (d.left - 1) = true) : (scanRound mul tbl e k d).left < d.left := by
  have hpos := windowAt_nSq_pos hk hbit
  have hcoast := coast_left_le mul e (applyWindow mul tbl (windowAt e k (d.left - 1)) d).left
    (applyWindow mul tbl (windowAt e k (d.left - 1)) d)
  rw [applyWindow_left] at hcoast
  rw [scanRound]
  simp only [applyWindow_left]
  omega

end

/-! ### The driver adds exponents -/

/-- The product `mul` takes a p-th power and a q-th power to a (p+q)-th power. -/
def AddsExponents (isPow : Nat → Limbs → Prop) (mul : Limbs → Limbs → Limbs) : Prop :=
  ∀ p q x y, isPow p x → isPow q y → isPow (p + q) (mul x y)

/-- Entry t of the table is a (2t+1)-th power (R162). -/
def IsOddPowerTable (isPow : Nat → Limbs → Prop) (k : Nat) (tbl : List Limbs) : Prop :=
  ∀ t, t < 2 ^ (k - 1) → isPow (2 * t + 1) (tbl.getD t [])

/-- What holds at the head of each round of the scan: the cursor is terminal or at a 1 bit, the identity flag is set only
while nothing but zeros is consumed, and then the accumulator is the power of the part consumed (R168 to R171). -/
structure Scan.AtHead (isPow : Nat → Limbs → Prop) (e : Limbs) (d : Scan) : Prop where
  atOne : 0 < d.left → bitAt e (d.left - 1) = true
  identity : d.isId = true → 0 < d.left ∧ val e / 2 ^ d.left = 0
  power : d.isId = false → isPow (val e / 2 ^ d.left) d.x

/-- A scan that starts at a nonzero exponent's bit length, with the identity flag set, starts at a head (R164). -/
theorem Scan.AtHead.start {e : Limbs} (hpos : 0 < bitLen e e.length) {d : Scan} (hleft : d.left = bitLen e e.length)
    (hid : d.isId = true) (isPow : Nat → Limbs → Prop) : d.AtHead isPow e where
  atOne _ := by simpa [hleft] using bitAt_bitLen_pred hpos
  identity _ := by simpa [hleft, hpos] using val_lt_two_pow_bitLen e
  power h := by simp [hid] at h

/-- At a terminal cursor the whole exponent is consumed (R170). -/
theorem Scan.AtHead.power_at_end {isPow : Nat → Limbs → Prop} {e : Limbs} {d : Scan} (hd : d.AtHead isPow e)
    (hzero : d.left = 0) : isPow (val e) d.x := by
  have hid : d.isId = false := Bool.eq_false_iff.2 fun h => (hd.identity h).1.ne' hzero
  simpa [hzero] using hd.power hid

section
variable {isPow : Nat → Limbs → Prop} {mul : Limbs → Limbs → Limbs} (hmul : AddsExponents isPow mul)
include hmul

/-- Squaring doubles the exponent (R167). -/
theorem squareTimes_isPow (count : Nat) {p : Nat} {x : Limbs} (h : isPow p x) :
    isPow (p * 2 ^ count) (squareTimes mul count x) := by
  induction count generalizing p x with
  | zero => simpa [squareTimes] using h
  | succ count ih =>
    have hsquare : p * 2 ^ (count + 1) = (p + p) * 2 ^ count := by rw [pow_succ]; ring
    rw [hsquare]
    exact ih (hmul _ _ _ _ h h)

/-- Each entry of the table is two exponents above the one before it (R162). -/
theorem oddPowers_isPow {g2 : Limbs} (hg2 : isPow 2 g2) {first : Limbs} {p : Nat} (hfirst : isPow p first)
    {t count : Nat} (ht : t < count) : isPow (2 * t + p) ((oddPowers (fun y => mul y g2) first count).getD t []) := by
  induction count generalizing first p t with
  | zero => omega
  | succ count ih =>
    cases t with
    | zero => simpa [oddPowers] using hfirst
    | succ t =>
      have hnext := ih (hmul _ _ _ _ hfirst hg2) (Nat.lt_of_succ_lt_succ ht)
      rw [show 2 * (t + 1) + p = 2 * t + (p + 2) by ring]
      exact hnext

/-- The table holds the odd powers of its first entry (R160, R162). -/
theorem buildTable_isOddPowerTable {baseMont : Limbs} (hbase : isPow 1 baseMont) (k : Nat) :
    IsOddPowerTable isPow k (buildTable mul baseMont k).1 := by
  intro t ht
  rw [buildTable]
  split
  case isTrue hk =>
    obtain rfl : t = 0 := by
      rw [Nat.sub_eq_zero_of_le hk] at ht
      omega
    exact hbase
  case isFalse => exact oddPowers_isPow hmul (hmul _ _ _ _ hbase hbase) hbase ht

/-- Coasting ends at a 1 bit or past bit 0, with the power of the part consumed (R169). -/
theorem coast_atHead {e : Limbs} (left : Nat) {d : Scan} (hid : d.isId = false) (hx : isPow (val e / 2 ^ left) d.x) :
    (coast mul e left d).AtHead isPow e := by
  induction left generalizing d with
  | zero => exact ⟨fun h => absurd h (Nat.lt_irrefl 0), fun h => absurd h (by simp [coast, hid]), fun _ => hx⟩
  | succ pos ih =>
    rw [coast]
    split
    case isTrue hone => exact ⟨fun _ => hone, fun h => absurd h (by simp [hid]), fun _ => hx⟩
    case isFalse hzero =>
      refine ih (d := { d with x := mul d.x d.x, sqr := d.sqr + 1 }) hid ?_
      rw [consumed_zero (Bool.eq_false_iff.2 hzero)]
      exact hmul _ _ _ _ hx hx

section
variable {tbl : List Limbs} {e : Limbs} {k : Nat} (hk : k ∈ [1, 3, 4, 5]) (htbl : IsOddPowerTable isPow k tbl)
include hk htbl

/-- Applying a window multiplies the power of the part consumed so far up to the part with the window (R167, R168). -/
theorem applyWindow_isPow {d : Scan} (hd : d.AtHead isPow e) (hleft : 0 < d.left) :
    isPow (val e / 2 ^ (d.left - (windowAt e k (d.left - 1)).nSq))
      (applyWindow mul tbl (windowAt e k (d.left - 1)) d).x := by
  have hk64 : k ≤ 64 := by fin_cases hk <;> decide
  have hkpos : 0 < k := by fin_cases hk <;> decide
  have hodd := windowAt_odd e hk64 hkpos (hd.atOne hleft)
  have hentry := htbl _ (windowAt_index_lt e hk64 (d.left - 1))
  rw [show 2 * (((windowAt e k (d.left - 1)).w - 1) / 2) + 1 = (windowAt e k (d.left - 1)).w by omega] at hentry
  rw [consumed_window e hk64 hleft, applyWindow]
  split
  case isTrue hid =>
    rw [(hd.identity hid).2, Nat.zero_mul, Nat.zero_add]
    exact hentry
  case isFalse hid =>
    exact hmul _ _ _ _ (squareTimes_isPow hmul _ (hd.power (Bool.eq_false_iff.2 hid))) hentry

/-- A round leads from one head to the next (R168 to R170). -/
theorem scanRound_atHead {d : Scan} (hd : d.AtHead isPow e) (hleft : 0 < d.left) :
    (scanRound mul tbl e k d).AtHead isPow e := by
  have hx := applyWindow_isPow hmul hk htbl hd hleft
  rw [← applyWindow_left mul tbl] at hx
  exact coast_atHead hmul _ (applyWindow_isId mul tbl _ d) hx

/-- The scan ends with the power of the whole exponent (R170, R173). -/
theorem scanLoop_isPow {fuel : Nat} {d : Scan} (hd : d.AtHead isPow e) (hfuel : d.left ≤ fuel) :
    isPow (val e) (scanLoop mul tbl e k fuel d).x := by
  induction fuel generalizing d with
  | zero => exact hd.power_at_end (Nat.le_zero.1 hfuel)
  | succ fuel ih =>
    rw [scanLoop]
    split
    case isTrue hzero => exact hd.power_at_end hzero
    case isFalse hmore =>
      have hleft := Nat.pos_of_ne_zero hmore
      have hless := scanRound_left_lt mul tbl (k := k) (by fin_cases hk <;> decide) hleft (hd.atOne hleft)
      exact ih (scanRound_atHead hmul hk htbl hd hleft) (by omega)

end
end

/-! ### The exponentiation in the Montgomery domain -/

/-- `x` is the reduced Montgomery form of the p-th power of `base`. -/
structure MontPower (n : Limbs) (base p : Nat) (x : Limbs) : Prop where
  width : x.length = n.length
  below : val x < val n
  value : val x ≡ radix n.length * base ^ p [MOD val n]

/-- A power has one Montgomery form. -/
theorem MontPower.unique {n x y : Limbs} {base p : Nat} (hx : MontPower n base p x) (hy : MontPower n base p y) :
    x = y :=
  val_injective (hx.width.trans hy.width.symm) ((hx.value.trans hy.value.symm).eq_of_lt_of_lt hx.below hy.below)

/-- MM adds exponents in the Montgomery domain (R114). -/
theorem mm_addsExponents {n0 : Word} {n : Limbs} (hodd : modulusOdd n = true) (hn0 : n0Correct n0 n = true)
    (base : Nat) : AddsExponents (MontPower n base) (mm n0 n) := by
  intro p q x y hx hy
  have hvalue := calc
    val x * val y ≡ radix n.length * base ^ p * (radix n.length * base ^ q) [MOD val n] := hx.value.mul hy.value
    _ = radix n.length * (radix n.length * base ^ (p + q)) := by ring
  exact ⟨mm_length n0 x hy.width (length_pos_of_odd hodd), val_mm_lt hodd hn0 hy.width hy.below x,
    val_mm_modEq hodd hn0 hy.width hy.below hx.width hvalue⟩

/-- What the contract of an exponentiation says (R175). -/
theorem modExpInContract_iff {n0 : Word} {n base rr : Limbs} : modExpInContract n0 n base rr = true ↔
    modulusOdd n = true ∧ n0Correct n0 n = true ∧ val rr = radix n.length * radix n.length % val n ∧
      val base < val n := by
  have hradix : 2 ^ (2 * 64 * n.length) = radix n.length * radix n.length := by
    rw [radix, ← pow_add]
    congr 1
    ring
  simp [modExpInContract, hradix, and_assoc]

/-- The first product takes the base into the Montgomery domain (R161). -/
theorem baseMont_montPower {n0 : Word} {n base rr : Limbs} (hbase : base.length = n.length)
    (hrr : rr.length = n.length) (hcontract : modExpInContract n0 n base rr = true) :
    MontPower n (val base) 1 (mm n0 n base rr) := by
  obtain ⟨hodd, hn0, hval, hlt⟩ := modExpInContract_iff.1 hcontract
  have hrrlt : val rr < val n := hval ▸ Nat.mod_lt _ (Nat.zero_lt_of_lt hlt)
  have hrrmod : val rr ≡ radix n.length * radix n.length [MOD val n] := hval ▸ Nat.mod_modEq _ _
  exact ⟨mm_length n0 base hrr (length_pos_of_odd hodd), val_mm_lt hodd hn0 hrr hrrlt base, by
    simpa using val_mm_rr hodd hn0 hbase hrr hrrlt hrrmod⟩

/-- With a zero exponent the result is one_L (R163). -/
theorem modExp_r_of_bitLen_zero (n0 : Word) {n e : Limbs} (base rr : Limbs) (k : Nat) (h : bitLen e n.length = 0) :
    (modExp n0 n base e rr k).r = oneL n.length := by
  simp [modExp, h]

/-- In contract and with a nonzero exponent the result is the last product with one_L of the Montgomery form of base^e
(R173). -/
theorem modExp_r_of_bitLen_pos {n0 : Word} {n base e rr : Limbs} {k : Nat} (hbase : base.length = n.length)
    (he : e.length = n.length) (hrr : rr.length = n.length) (hk : k ∈ [1, 3, 4, 5])
    (hcontract : modExpInContract n0 n base rr = true) (hpos : 0 < bitLen e n.length) :
    ∃ x, MontPower n (val base) (val e) x ∧ (modExp n0 n base e rr k).r = mm n0 n x (oneL n.length) := by
  obtain ⟨hodd, hn0, -, -⟩ := modExpInContract_iff.1 hcontract
  have hmul := mm_addsExponents hodd hn0 (val base)
  have htbl := buildTable_isOddPowerTable hmul (baseMont_montPower hbase hrr hcontract) k
  rw [← he] at hpos
  rw [modExp, ← he, if_neg hpos.ne']
  refine ⟨_, ?_, rfl⟩
  exact scanLoop_isPow hmul hk htbl (.start hpos rfl rfl _) le_rfl

/-- Settles O24: for either width the result is the same product of the same Montgomery form of base^e. -/
theorem resultIndependentOfWindowWidth : Obligations.ResultIndependentOfWindowWidth := by
  intro n0 n base e rr j k hbase he hrr hj hk hcontract
  rcases Nat.eq_zero_or_pos (bitLen e n.length) with hzero | hpos
  · rw [modExp_r_of_bitLen_zero n0 base rr j hzero, modExp_r_of_bitLen_zero n0 base rr k hzero]
  · obtain ⟨x, hx, hxr⟩ := modExp_r_of_bitLen_pos hbase he hrr hj hcontract hpos
    obtain ⟨y, hy, hyr⟩ := modExp_r_of_bitLen_pos hbase he hrr hk hcontract hpos
    rw [hxr, hyr, hx.unique hy]

end Sys2Proof.Machine
end

section
/-! PROOFS. The windows, the odd-power table and the operation counts of an exponentiation
(spec/42_modexp.md R160 to R182). -/

namespace Sys2Proof.Machine

/-! ### Windows and the table -/

theorem windowWidth_range {k : Nat} (hk : k ∈ [1, 3, 4, 5]) : 1 ≤ k ∧ k ≤ 5 := by
  fin_cases hk <;> decide

/-- Settles O17: the extracted window and the shifted value have the same bits. -/
theorem windowExtractionIsShift : Obligations.WindowExtractionIsShift :=
  fun e _ _ _ hlen hpos => extractWindow_eq e (hlen.trans (by decide)) hpos

/-- Settles O18: stripping zeros from a window with a 1 bit on top ends at an odd value. -/
theorem windowIsOddAndInTable : Obligations.WindowIsOddAndInTable := by
  intro e k pos hk hbit
  obtain ⟨hkpos, hk5⟩ := windowWidth_range hk
  have hk64 : k ≤ 64 := hk5.trans (by decide)
  exact ⟨rfl, windowAt_odd e hk64 hkpos hbit, windowAt_w_lt e hk64 pos, windowAt_index_lt e hk64 pos,
    windowAt_nSq_pos hkpos hbit, windowAt_nSq_le_len e k pos, windowAt_w e hk64 pos⟩

@[simp] theorem oddPowers_length (mulG2 : Limbs → Limbs) (first : Limbs) (count : Nat) :
    (oddPowers mulG2 first count).length = count := by
  induction count generalizing first with
  | zero => rfl
  | succ count ih => rw [oddPowers, List.length_cons, ih]

/-- The table has 2^(k-1) entries (R160). -/
theorem buildTable_length (mul : Limbs → Limbs → Limbs) (baseMont : Limbs) (k : Nat) :
    (buildTable mul baseMont k).1.length = 2 ^ (k - 1) := by
  rw [buildTable]
  split
  case isTrue hk => simp [Nat.sub_eq_zero_of_le hk]
  case isFalse => exact oddPowers_length _ _ _

/-- The squarings and multiplications that building the table takes (R162). -/
theorem buildTable_products (mul : Limbs → Limbs → Limbs) (baseMont : Limbs) (k : Nat) :
    (buildTable mul baseMont k).2.1 = (if 1 < k then 1 else 0) ∧
    (buildTable mul baseMont k).2.2 = (if 1 < k then 2 ^ (k - 1) - 1 else 0) := by
  rw [buildTable]
  split
  case isTrue hk => simp [hk.not_gt]
  case isFalse hk => simp [not_le.1 hk]

/-- The value of the Montgomery form of a power. -/
theorem MontPower.val_eq {n x : Limbs} {base p : Nat} (h : MontPower n base p x) :
    val x = base ^ p * radix n.length % val n := by
  rw [Nat.mul_comm, ← Nat.mod_eq_of_lt h.below]
  exact h.value

/-- Settles O16: the entries are odd powers because MM adds exponents in the Montgomery domain. -/
theorem oddPowerTableEntries : Obligations.OddPowerTableEntries := by
  intro n0 n baseMont base k hwidth hodd hn0 hk hval
  have hbase : MontPower n base 1 baseMont :=
    ⟨hwidth, hval ▸ Nat.mod_lt _ (val_odd hodd).pos, by
      rw [hval, pow_one, Nat.mul_comm]
      exact Nat.mod_modEq _ _⟩
  have htbl := buildTable_isOddPowerTable (mm_addsExponents hodd hn0 base) hbase k
  obtain ⟨hsqr, hmul⟩ := buildTable_products (mm n0 n) baseMont k
  refine ⟨buildTable_length _ _ k, fun t ht => ⟨(htbl t ht).width, (htbl t ht).val_eq⟩, Prod.ext ?_ ?_⟩
  · rw [hsqr]
    fin_cases hk <;> rfl
  · rw [hmul]
    fin_cases hk <;> rfl

/-! ### Where a round ends -/

/-- The bit found by searching downward is 1. -/
theorem bitAt_nextOne {e : Limbs} {left : Nat} (h : 0 < nextOne e left) : bitAt e (nextOne e left - 1) = true := by
  induction left with
  | zero => cases h
  | succ pos ih =>
    rw [nextOne] at h ⊢
    split
    case isTrue hone => exact hone
    case isFalse hzero =>
      rw [if_neg hzero] at h
      exact ih h

theorem nextOne_le (e : Limbs) (left : Nat) : nextOne e left ≤ left := by
  induction left with
  | zero => exact le_rfl
  | succ pos ih =>
    rw [nextOne]
    split
    · exact le_rfl
    · exact ih.trans pos.le_succ

section
variable (mul : Limbs → Limbs → Limbs) (tbl : List Limbs) (e : Limbs) (k : Nat)

/-- Coasting ends at the next 1 bit or past bit 0 (R169). -/
theorem coast_left (left : Nat) (d : Scan) : (coast mul e left d).left = nextOne e left := by
  induction left generalizing d with
  | zero => rfl
  | succ pos ih =>
    rw [coast, nextOne]
    split
    · rfl
    · exact ih _

/-- A round moves the cursor as the list of windows does (R165 to R169). -/
theorem scanRound_left (d : Scan) :
    (scanRound mul tbl e k d).left = nextOne e (d.left - (windowAt e k (d.left - 1)).nSq) := by
  simp only [scanRound, coast_left, applyWindow_left]

/-- A round ends at a 1 bit or past bit 0 (R170). -/
theorem scanRound_bitAt {d : Scan} (h : 0 < (scanRound mul tbl e k d).left) :
    bitAt e ((scanRound mul tbl e k d).left - 1) = true := by
  rw [scanRound_left] at h ⊢
  exact bitAt_nextOne h

/-- A round clears the identity flag (R168). -/
theorem scanRound_isId (d : Scan) : (scanRound mul tbl e k d).isId = false := by
  simp only [scanRound, coast_counts, applyWindow_isId]

/-- The scan from a 1 bit ends past bit 0, with one round for each bit at most (R170, R171). -/
theorem scanLoop_left_eq_zero {k : Nat} (hk : 0 < k) {fuel : Nat} {d : Scan}
    (hbit : 0 < d.left → bitAt e (d.left - 1) = true) (hfuel : d.left ≤ fuel) :
    (scanLoop mul tbl e k fuel d).left = 0 := by
  induction fuel generalizing d with
  | zero => exact Nat.le_zero.1 hfuel
  | succ fuel ih =>
    rw [scanLoop]
    split
    case isTrue hzero => exact hzero
    case isFalse hmore =>
      have hleft := Nat.pos_of_ne_zero hmore
      have hless := scanRound_left_lt mul tbl hk hleft (hbit hleft)
      exact ih (scanRound_bitAt mul tbl e k) (by omega)

end

/-- Settles O19: a round from a 1 bit consumes at least that bit. -/
theorem scanReachesTheEnd : Obligations.ScanReachesTheEnd := by
  intro mul tbl e k d hk hleft hbit
  have hkpos : 0 < k := (windowWidth_range hk).1
  exact ⟨scanRound_left_lt mul tbl hkpos hleft hbit, scanRound_isId mul tbl e k d, scanRound_bitAt mul tbl e k,
    scanLoop_left_eq_zero mul tbl e hkpos (fun _ => hbit) le_rfl⟩

/-! ### The operation counts -/

/-- There are at most as many windows as rounds allowed. -/
theorem windowsFrom_length_le (e : Limbs) (k fuel left : Nat) : (windowsFrom e k fuel left).length ≤ fuel := by
  induction fuel generalizing left with
  | zero => exact le_rfl
  | succ fuel ih =>
    rw [windowsFrom]
    split
    · exact Nat.zero_le _
    · exact Nat.succ_le_succ (ih _)

/-- The first window of a nonzero exponent is the one at its highest 1 bit (R164, R165). -/
theorem windowsOf_eq_cons {e : Limbs} {l : Nat} (hpos : 0 < bitLen e l) (k : Nat) :
    windowsOf e l k = windowAt e k (bitLen e l - 1) :: (windowsOf e l k).tail := by
  rw [windowsOf]
  cases hE : bitLen e l with
  | zero => omega
  | succ pos => rfl

section
variable (mul : Limbs → Limbs → Limbs) (tbl : List Limbs) (e : Limbs) (k : Nat)

/-- Once the accumulator is no longer the identity, the scan pays one multiplication for each window (R167, R178). -/
theorem scanLoop_mul (fuel : Nat) {d : Scan} (hid : d.isId = false) :
    (scanLoop mul tbl e k fuel d).mul = d.mul + (windowsFrom e k fuel d.left).length := by
  induction fuel generalizing d with
  | zero => rfl
  | succ fuel ih =>
    rw [scanLoop, windowsFrom]
    split
    case isTrue => rfl
    case isFalse hmore =>
      obtain ⟨-, hmul, hid'⟩ := scanRound_counts mul tbl e k hid (Nat.pos_of_ne_zero hmore)
      rw [ih hid', hmul, scanRound_left, List.length_cons]
      ring

/-- From the identity and a 1 bit the first window is free: the scan pays one squaring for each bit below it and one
multiplication for each later window (R168, R178). -/
theorem scanLoop_counts_first {k : Nat} (hk : 0 < k) {d : Scan} (hid : d.isId = true) (hleft : 0 < d.left)
    (hbit : bitAt e (d.left - 1) = true) :
    (scanLoop mul tbl e k d.left d).sqr = d.sqr + (d.left - (windowAt e k (d.left - 1)).nSq) ∧
    (scanLoop mul tbl e k d.left d).mul = d.mul + (windowsFrom e k d.left d.left).tail.length := by
  have hend := scanLoop_left_eq_zero mul tbl e hk (fun _ => hbit) (le_refl d.left)
  have hwin := windowAt_nSq_le e k (d.left - 1)
  obtain ⟨hsqr, hmul, hid'⟩ := scanRound_counts_first mul tbl e k hid hleft
  obtain ⟨fuel, hfuel⟩ : ∃ fuel, d.left = fuel + 1 := ⟨d.left - 1, by omega⟩
  have hloop : scanLoop mul tbl e k d.left d = scanLoop mul tbl e k fuel (scanRound mul tbl e k d) := by
    conv_lhs => rw [hfuel]
    exact if_neg hleft.ne'
  have hwindows : (windowsFrom e k d.left d.left).tail = windowsFrom e k fuel (scanRound mul tbl e k d).left := by
    rw [scanRound_left]
    conv_lhs => rw [hfuel]
    rw [windowsFrom, if_neg fuel.succ_ne_zero, List.tail_cons, hfuel]
  obtain ⟨hloopSqr, -⟩ := scanLoop_counts mul tbl e k fuel hid'
  rw [hloop] at hend ⊢
  rw [scanLoop_mul mul tbl e k fuel hid', hwindows]
  omega

end

/-- With a zero exponent no product is performed (R163). -/
theorem modExp_counts_of_bitLen_zero (n0 : Word) {n e : Limbs} (base rr : Limbs) (k : Nat)
    (h : bitLen e n.length = 0) : (modExp n0 n base e rr k).sqr = 0 ∧ (modExp n0 n base e rr k).mul = 0 := by
  simp [modExp, h]

/-- The exact operation counts with a nonzero exponent (R178). -/
theorem modExp_counts (n0 : Word) {n e : Limbs} (base rr : Limbs) {k : Nat} (hk : 0 < k)
    (hpos : 0 < bitLen e n.length) :
    (modExp n0 n base e rr k).sqr
      = (if 1 < k then 1 else 0) + (bitLen e n.length - (windowAt e k (bitLen e n.length - 1)).nSq) ∧
    (modExp n0 n base e rr k).mul
      = 1 + (if 1 < k then 2 ^ (k - 1) - 1 else 0) + (windowsOf e n.length k).tail.length + 1 := by
  obtain ⟨htblSqr, htblMul⟩ := buildTable_products (mm n0 n) (mm n0 n base rr) k
  obtain ⟨hsqr, hmul⟩ := scanLoop_counts_first (mm n0 n) (buildTable (mm n0 n) (mm n0 n base rr) k).1 e hk
    (d := { x := [], isId := true, left := bitLen e n.length,
            sqr := (buildTable (mm n0 n) (mm n0 n base rr) k).2.1,
            mul := 1 + (buildTable (mm n0 n) (mm n0 n base rr) k).2.2 })
    rfl hpos (bitAt_bitLen_pred hpos)
  rw [modExp, if_neg hpos.ne', ← htblSqr, ← htblMul]
  exact ⟨hsqr, congrArg (· + 1) hmul⟩

/-- Settles O20: the first window is free, and each later one takes a multiplication. -/
theorem exponentiationOperationCounts : Obligations.ExponentiationOperationCounts := by
  intro n0 n base e rr k hk hn
  refine ⟨modExp_counts_of_bitLen_zero n0 base rr k, fun hpos => ?_, modExp_counts_le n0 n base e rr hk hn⟩
  obtain ⟨hsqr, hmul⟩ := modExp_counts n0 base rr (windowWidth_range hk).1 hpos
  exact ⟨_, _, windowsOf_eq_cons hpos k, hsqr, hmul⟩

/-- Settles O22: there are at most E windows, and at most E bits below the first. -/
theorem exponentiationProductBound : Obligations.ExponentiationProductBound := by
  intro n0 n base e rr k hk
  rcases Nat.eq_zero_or_pos (bitLen e n.length) with hzero | hpos
  · obtain ⟨hsqr, hmul⟩ := modExp_counts_of_bitLen_zero n0 base rr k hzero
    omega
  · obtain ⟨hsqr, hmul⟩ := modExp_counts n0 base rr (windowWidth_range hk).1 hpos
    obtain ⟨htblSqr, htblMul⟩ := buildTable_counts (mm n0 n) (mm n0 n base rr) hk
    rw [(buildTable_products _ _ k).1] at htblSqr
    rw [(buildTable_products _ _ k).2] at htblMul
    have hwindows : (windowsOf e n.length k).tail.length ≤ bitLen e n.length :=
      (List.tail_sublist _).length_le.trans (windowsFrom_length_le e k _ _)
    omega

/-! ### Binary exponentiation -/

/-- With k = 1 the window at a 1 bit consumes that bit alone (R182). -/
theorem windowAt_one_nSq {e : Limbs} {pos : Nat} (hbit : bitAt e pos = true) : (windowAt e 1 pos).nSq = 1 :=
  Nat.le_antisymm ((windowAt_nSq_le_len e 1 pos).trans (Nat.min_le_left _ _))
    (windowAt_nSq_pos Nat.one_pos hbit)

theorem countP_range_succ (p : Nat → Bool) (m : Nat) :
    (List.range (m + 1)).countP p = (List.range m).countP p + if p m then 1 else 0 := by
  rw [List.range_succ, List.countP_append, List.countP_singleton]

/-- Searching downward for a 1 bit passes no 1 bit. -/
theorem countP_range_nextOne (e : Limbs) (left : Nat) :
    (List.range (nextOne e left)).countP (bitAt e) = (List.range left).countP (bitAt e) := by
  induction left with
  | zero => rfl
  | succ pos ih =>
    rw [nextOne]
    split
    case isTrue => rfl
    case isFalse hzero => rw [ih, countP_range_succ, if_neg hzero, Nat.add_zero]

/-- With k = 1 there is one window for each 1 bit (R182). -/
theorem windowsFrom_one_length {e : Limbs} {fuel left : Nat} (hbit : 0 < left → bitAt e (left - 1) = true)
    (hfuel : left ≤ fuel) : (windowsFrom e 1 fuel left).length = (List.range left).countP (bitAt e) := by
  induction fuel generalizing left with
  | zero => rw [Nat.le_zero.1 hfuel]; rfl
  | succ fuel ih =>
    cases left with
    | zero => rfl
    | succ pos =>
      have hone : bitAt e pos = true := hbit pos.succ_pos
      have hnext := (nextOne_le e pos).trans (Nat.le_of_succ_le_succ hfuel)
      rw [windowsFrom, if_neg pos.succ_ne_zero]
      simp only [Nat.add_sub_cancel, windowAt_one_nSq hone, List.length_cons]
      rw [ih bitAt_nextOne hnext, countP_range_nextOne, countP_range_succ, if_pos hone]

/-- Settles O21: each 1 bit is a window of its own, and the first is free. -/
theorem binaryExponentiationCounts : Obligations.BinaryExponentiationCounts := by
  intro n0 n base e rr hpos
  have htop := bitAt_bitLen_pred hpos
  obtain ⟨hsqr, hmul⟩ := modExp_counts n0 base rr Nat.one_pos hpos
  have hwindows : (windowsOf e n.length 1).length = (List.range (bitLen e n.length)).countP (bitAt e) :=
    windowsFrom_one_length (fun _ => htop) le_rfl
  rw [windowsOf_eq_cons hpos, List.length_cons] at hwindows
  rw [windowAt_one_nSq htop] at hsqr
  rw [← List.countP_eq_length_filter, ← hwindows]
  constructor
  · simpa using hsqr
  · rw [hmul, if_neg (by decide)]
    ring

end Sys2Proof.Machine
end

section
/-! PROOFS. The result of an exponentiation in contract, and what MODEXP4 and MODEXPG write
(spec/42_modexp.md R163, R173 to R183). -/

namespace Sys2Proof.Machine

/-! ### The modulus 1 -/

/-- A multiplier word 0 adds the carry alone, whatever it multiplies (R102). -/
theorem macRow_zero_congr (ts : Limbs) {xs ys : Limbs} (hlen : xs.length = ys.length) (c : Word) :
    macRow ts 0 xs c = macRow ts 0 ys c := by
  induction ts generalizing xs ys c with
  | nil => cases xs <;> cases ys <;> rfl
  | cons t ts ih =>
    cases xs with
    | nil => rw [List.length_eq_zero_iff.1 hlen.symm]
    | cons x xs =>
      cases ys with
      | nil => cases hlen
      | cons y ys =>
        have hmac : mac t 0 x c = mac t 0 y c := by simp [mac]
        rw [macRow, macRow, hmac, ih (Nat.succ.inj hlen)]

theorem addMul_zero_congr (acc : Acc) {xs ys : Limbs} (hlen : xs.length = ys.length) :
    acc.addMul 0 xs = acc.addMul 0 ys := by
  rw [Acc.addMul, Acc.addMul, macRow_zero_congr _ hlen]

/-- A product whose first factor is 0 does not depend on the second (R102). -/
theorem mm_zero_congr (n0 : Word) (n : Limbs) {a b c : Limbs} (ha : val a = 0) (hlen : b.length = c.length) :
    mm n0 n a b = mm n0 n a c := by
  have hzero : a = List.replicate a.length 0 := val_injective (by simp) (by simpa using ha)
  have hrows : ∀ acc, ∀ ai ∈ a, ciosRow n0 n b acc ai = ciosRow n0 n c acc ai := fun acc ai hai => by
    rw [hzero] at hai
    rw [List.eq_of_mem_replicate hai, ciosRow_eq, ciosRow_eq, addMul_zero_congr _ hlen]
  rw [mm, mm, List.foldl_ext _ _ _ hrows]

/-- The product with one_L stays below n (R173). For n = 1, where one_L is not below n, the first factor is 0. -/
theorem val_mm_oneL_lt {n0 : Word} {n x : Limbs} (hodd : modulusOdd n = true) (hn0 : n0Correct n0 n = true)
    (hwidth : x.length = n.length) (hx : val x < val n) : val (mm n0 n x (oneL n.length)) < val n := by
  rcases Nat.lt_or_ge 1 (val n) with hone | hone
  · exact val_mm_lt hodd hn0 (oneL_length _) ((val_oneL (length_pos_of_odd hodd)).trans_lt hone) x
  · rw [mm_zero_congr n0 n (c := x) (by omega) ((oneL_length _).trans hwidth.symm)]
    exact val_mm_lt hodd hn0 hwidth hx x

/-- The product with one_L of the Montgomery form of a power is the power, reduced (R173, R176). -/
theorem MontPower.val_mm_oneL {n0 : Word} {n x : Limbs} {base p : Nat} (hodd : modulusOdd n = true)
    (hn0 : n0Correct n0 n = true) (hx : MontPower n base p x) :
    val (mm n0 n x (oneL n.length)) = base ^ p % val n := by
  have hlt := val_mm_oneL_lt hodd hn0 hx.width hx.below
  rcases Nat.lt_or_ge 1 (val n) with hone | hone
  · rw [← Nat.mod_eq_of_lt hlt]
    exact Machine.val_mm_oneL hodd hn0 hone hx.width hx.value
  · have hn : val n = 1 := by omega
    rw [hn, Nat.mod_one]
    omega

/-! ### The result in contract -/

/-- In contract and with a nonzero exponent the result is base^e mod n, reduced (R176). -/
theorem val_modExp_r {n0 : Word} {n base e rr : Limbs} {k : Nat} (hbase : base.length = n.length)
    (he : e.length = n.length) (hrr : rr.length = n.length) (hk : k ∈ [1, 3, 4, 5])
    (hcontract : modExpInContract n0 n base rr = true) (hpos : 0 < bitLen e n.length) :
    val (modExp n0 n base e rr k).r = val base ^ val e % val n := by
  obtain ⟨hodd, hn0, -, -⟩ := modExpInContract_iff.1 hcontract
  obtain ⟨x, hx, hr⟩ := modExp_r_of_bitLen_pos hbase he hrr hk hcontract hpos
  rw [hr]
  exact hx.val_mm_oneL hodd hn0

/-- Settles O23: the last product takes base^e out of the Montgomery domain. -/
theorem exponentiationInContract : Obligations.ExponentiationInContract := by
  intro n0 n base e rr k hbase he hrr hk hcontract
  obtain ⟨hodd, -, -, -⟩ := modExpInContract_iff.1 hcontract
  refine ⟨modExp_length n0 (length_pos_of_odd hodd) base e rr k, fun hpos => ?_,
    modExp_r_of_bitLen_zero n0 base rr k⟩
  rw [val_modExp_r hbase he hrr hk hcontract hpos]
  exact ⟨rfl, Nat.mod_lt _ (val_odd hodd).pos⟩

/-! ### What the exponentiation commands write -/

/-- MODEXP4 with a legal window selector and an odd modulus runs the exponentiation at L = 4 (R180). -/
theorem exec_modexp4_odd {s : State} {k : Nat} (hk : effK s.internals.ksel (bitLen (s.limbs .b 4) 4) = some k)
    (hodd : s.modulusEven = false) : exec .modexp4 s = .next (modexpFinish .modexp4 4 k s) := by
  simp [exec, execModexp4, modexp4Step, hk, hodd]

/-- MODEXPG with a legal limb count and an odd modulus runs the exponentiation with k = 1 (R182). -/
theorem exec_modexpg_odd {s : State} {l : Nat} (hl : effL Config.clampLcount s.internals.lcount = some l)
    (hodd : s.modulusEven = false) : exec .modexpg s = .next (modexpFinish .modexpg l 1 s) := by
  simp [exec, execModexpg, modexpgStep, hl, hodd]

/-- An exponentiation writes its result to RES (R180, R182). -/
@[simp] theorem modexpFinish_bankRes (site : Config.DrawSite) (l k : Nat) (s : State) :
    (modexpFinish site l k s).bankRes = Bank.ofResult (modexpResult site l k s) := by
  simp [modexpFinish]

/-- The modulus of operands in contract is odd (R175, R203). -/
theorem modulusEven_of_inContract {s : State} {l : Nat} (hl : 1 ≤ l)
    (hcontract : modExpInContract s.n0 (s.limbs .n l) (s.limbs .a l) (s.limbs .rr l) = true) :
    s.modulusEven = false := by
  obtain ⟨hodd, -, -, -⟩ := modExpInContract_iff.1 hcontract
  simpa [modulusOdd_limbs s hl] using hodd

/-- In contract or with a zero exponent, and with no operand write in flight, the result is the rule's value
(R163, R176). -/
theorem modexpResult_of_defined {s : State} {l : Nat} (hflight : s.inFlight = false)
    (h : bitLen (s.limbs .b l) l = 0 ∨ modExpInContract s.n0 (s.limbs .n l) (s.limbs .a l) (s.limbs .rr l) = true)
    (site : Config.DrawSite) (k : Nat) : modexpResult site l k s = (modexpRun l k s).r :=
  if_pos ⟨hflight, h⟩

/-- Out of contract with a nonzero exponent, or with an operand write in flight, the limbs of the result are free values
(R177, R246). -/
theorem limbAt_modexpResult_of_undefined {s : State} {l : Nat}
    (h : s.inFlight = true ∨ (modExpInContract s.n0 (s.limbs .n l) (s.limbs .a l) (s.limbs .rr l) = false ∧
      0 < bitLen (s.limbs .b l) l))
    (site : Config.DrawSite) (k : Nat) {i : Nat} (hi : i < l) : limbAt (modexpResult site l k s) i
      = Config.undefinedLimb site s.draws [[s.n0], s.limbs .n l, s.limbs .a l, s.limbs .b l, s.limbs .rr l] i := by
  have hcond : ¬ (s.inFlight = false ∧ (bitLen (s.limbs .b l) l = 0 ∨
      modExpInContract s.n0 (s.limbs .n l) (s.limbs .a l) (s.limbs .rr l) = true)) := by
    rintro ⟨hflight, hdefined⟩
    rcases h with h | ⟨hcontract, hpos⟩
    · simp [h] at hflight
    · exact hdefined.elim hpos.ne' (by simp [hcontract])
  simp [modexpResult, hcond, limbAt, hi]

section
variable (site : Config.DrawSite) {l k : Nat} (hl : 1 ≤ l) (hl16 : l ≤ 16) (hk : k ∈ [1, 3, 4, 5]) (s : State)

include hl in
/-- An exponentiation writes RES whole, with 0 from limb L up (R31). -/
theorem modexpFinish_res_whole :
    (∀ i, i < 16 → (modexpFinish site l k s).isWritten .res i = true) ∧
    (∀ i, l ≤ i → i < 16 → (modexpFinish site l k s).limb .res i = 0) :=
  res_whole (modexpFinish_bankRes site l k s) (modexpResult_length hl site k s)

include hl hl16 in
/-- RES reads back the result (R31). -/
theorem modexpFinish_limbs_res : (modexpFinish site l k s).limbs .res l = modexpResult site l k s :=
  limbs_of_bankRes (modexpFinish_bankRes site l k s) (modexpResult_length hl site k s) hl16

include hl16 hk

/-- The registers of an exponentiation are wide enough for what it writes, and it completes without an error
(R178, R180, R182). -/
theorem modexpFinish_registers :
    (modexpFinish site l k s).expBitsWord.toNat = bitLen (s.limbs .b l) l ∧
    (modexpFinish site l k s).winKWord.toNat = k ∧
    (modexpFinish site l k s).sqr.toNat = (modexpRun l k s).sqr ∧
    (modexpFinish site l k s).mul.toNat = (modexpRun l k s).mul ∧
    (modexpFinish site l k s).errCode = .none ∧ (modexpFinish site l k s).done = true ∧
    (modexpFinish site l k s).busy = false := by
  obtain ⟨hsqr, hmul⟩ : (modexpRun l k s).sqr ≤ 1024 ∧ (modexpRun l k s).mul ≤ 1 + 15 + 1024 + 1 :=
    modExp_counts_le s.n0 _ _ _ _ hk (by rwa [limbs_length])
  obtain ⟨f, hf⟩ := modexpFinish_eq site l k s
  refine ⟨expBitsWord_toNat (by simp [hf]) hl16, winKWord_toNat (by simp [hf]) hk, ?_, ?_, by simp [hf], by simp [hf],
    by simp [hf]⟩
  · rw [hf]
    exact Nat.mod_eq_of_lt (by omega)
  · rw [hf]
    exact Nat.mod_eq_of_lt (by omega)

end

/-! ### MODEXP4 and MODEXPG -/

/-- In contract and with a nonzero exponent RES takes base^e mod n (R176). -/
theorem val_modexpFinish_res (site : Config.DrawSite) {s : State} {l k : Nat} (hl : 1 ≤ l) (hl16 : l ≤ 16)
    (hk : k ∈ [1, 3, 4, 5]) (hflight : s.inFlight = false)
    (hcontract : modExpInContract s.n0 (s.limbs .n l) (s.limbs .a l) (s.limbs .rr l) = true)
    (hpos : 0 < bitLen (s.limbs .b l) l) :
    val ((modexpFinish site l k s).limbs .res l) = val (s.limbs .a l) ^ val (s.limbs .b l) % val (s.limbs .n l) := by
  rw [modexpFinish_limbs_res site hl hl16, modexpResult_of_defined hflight (.inr hcontract)]
  exact val_modExp_r (by simp) (by simp) (by simp) hk hcontract (by rwa [limbs_length])

/-- Out of contract or with an operand write in flight the result limbs of RES are free values (R177, R246). -/
theorem limb_modexpFinish_res_of_undefined (site : Config.DrawSite) {s : State} {l : Nat} (k : Nat) (hl16 : l ≤ 16)
    (h : s.inFlight = true ∨ (modExpInContract s.n0 (s.limbs .n l) (s.limbs .a l) (s.limbs .rr l) = false ∧
      0 < bitLen (s.limbs .b l) l)) {i : Nat} (hi : i < l) : (modexpFinish site l k s).limb .res i
      = Config.undefinedLimb site s.draws [[s.n0], s.limbs .n l, s.limbs .a l, s.limbs .b l, s.limbs .rr l] i := by
  rw [limb_of_bankRes (modexpFinish_bankRes site l k s) (hi.trans_le hl16)]
  exact limbAt_modexpResult_of_undefined h site k hi

/-- With a zero exponent, RES takes one_L, and OPCOUNT and EXPBITS take 0 (R163). -/
theorem modexpFinish_of_bitLen_zero (site : Config.DrawSite) {s : State} {l : Nat} (k : Nat) (hl : 1 ≤ l)
    (hl16 : l ≤ 16) (hflight : s.inFlight = false) (hzero : bitLen (s.limbs .b l) l = 0) :
    (modexpFinish site l k s).limbs .res l = oneL l ∧ (modexpFinish site l k s).opCountWord = 0 ∧
    (modexpFinish site l k s).expBits = 0 := by
  have hzero' : bitLen (s.limbs .b l) (s.limbs .n l).length = 0 := by rwa [limbs_length]
  have hone : (modexpRun l k s).r = oneL l :=
    (modExp_r_of_bitLen_zero s.n0 _ _ k hzero').trans (by rw [limbs_length])
  obtain ⟨hsqr, hmul⟩ : (modexpRun l k s).sqr = 0 ∧ (modexpRun l k s).mul = 0 :=
    modExp_counts_of_bitLen_zero s.n0 _ _ k hzero'
  obtain ⟨f, hf⟩ := modexpFinish_eq site l k s
  refine ⟨?_, by simp [hf, State.opCountWord, hsqr, hmul], by simp [hf, hzero]⟩
  rw [modexpFinish_limbs_res site hl hl16, modexpResult_of_defined hflight (.inl hzero), hone]

/-- Settles O25: the exponentiation at L = 4 with the selected width. -/
theorem modexp4InContractCompletes : Obligations.Modexp4InContractCompletes := by
  intro s k hk hflight hcontract hpos
  have hrange := effK_range hk
  obtain ⟨hwritten, hzero⟩ := modexpFinish_res_whole .modexp4 (l := 4) (k := k) (by decide) s
  exact ⟨_, exec_modexp4_odd hk (modulusEven_of_inContract (by decide) hcontract),
    val_modexpFinish_res .modexp4 (by decide) (by decide) hrange hflight hcontract hpos, hzero, hwritten,
    modexpFinish_registers .modexp4 (by decide) hrange s⟩

/-- Settles O26: the exponentiation at the latched limb count with k = 1. -/
theorem modexpgInContractCompletes : Obligations.ModexpgInContractCompletes := by
  intro s l hl hflight hcontract hpos
  obtain ⟨hl1, hl16⟩ := effL_range hl
  obtain ⟨hwritten, hzero⟩ := modexpFinish_res_whole .modexpg (k := 1) hl1 s
  exact ⟨_, exec_modexpg_odd hl (modulusEven_of_inContract hl1 hcontract),
    val_modexpFinish_res .modexpg hl1 hl16 (by decide) hflight hcontract hpos, hzero, hwritten,
    modexpFinish_registers .modexpg hl16 (by decide) s⟩

/-- Settles O28: only the limbs below L are free values. -/
theorem exponentiationOutOfContractCompletes : Obligations.ExponentiationOutOfContractCompletes := by
  intro s hodd
  refine ⟨fun k hk hundefined => ?_, fun l hl hundefined => ?_⟩
  · exact ⟨_, exec_modexp4_odd hk hodd,
      fun i hi => limb_modexpFinish_res_of_undefined .modexp4 k (by decide) hundefined hi,
      (modexpFinish_res_whole .modexp4 (by decide) s).2,
      modexpFinish_registers .modexp4 (l := 4) (by decide) (effK_range hk) s⟩
  · obtain ⟨hl1, hl16⟩ := effL_range hl
    exact ⟨_, exec_modexpg_odd hl hodd,
      fun i hi => limb_modexpFinish_res_of_undefined .modexpg 1 hl16 hundefined hi,
      (modexpFinish_res_whole .modexpg hl1 s).2, modexpFinish_registers .modexpg hl16 (by decide) s⟩

/-- Settles O27: the exponentiation stops before its first product. -/
theorem zeroExponentGivesOne : Obligations.ZeroExponentGivesOne := by
  intro s hodd hflight
  refine ⟨fun k hk hE => ?_, fun l hl hE => ?_⟩
  · rw [← hE] at hk
    obtain ⟨hres, hops, hexp⟩ := modexpFinish_of_bitLen_zero .modexp4 k (by decide) (by decide) hflight hE
    obtain ⟨-, hwin, -, -, hcode, -, -⟩ := modexpFinish_registers .modexp4 (l := 4) (by decide) (effK_range hk) s
    exact ⟨_, exec_modexp4_odd hk hodd, hres, (modexpFinish_res_whole .modexp4 (by decide) s).2, hops, hexp, hwin,
      hcode⟩
  · obtain ⟨hl1, hl16⟩ := effL_range hl
    obtain ⟨hres, hops, hexp⟩ := modexpFinish_of_bitLen_zero .modexpg 1 hl1 hl16 hflight hE
    obtain ⟨-, hwin, -, -, hcode, -, -⟩ := modexpFinish_registers .modexpg (k := 1) hl16 (by decide) s
    exact ⟨_, exec_modexpg_odd hl hodd, hres, (modexpFinish_res_whole .modexpg hl1 s).2, hops, hexp, hwin, hcode⟩

/-- A legal window selector gives an effective window width (R86). -/
theorem effK_of_kselLegal {f : BitVec 4} (h : kselLegal f = true) (expLen : Nat) : ∃ k, effK f expLen = some k := by
  by_cases hzero : f.toNat = 0
  · exact ⟨_, effK_zero hzero expLen⟩
  · exact ⟨_, (effK_nonzero hzero expLen).trans (if_pos h)⟩

/-- Settles O29: in contract the result does not depend on the window width. -/
theorem fixedAndGenericEnginesAgree : Obligations.FixedAndGenericEnginesAgree := by
  intro s p q hlcount hksel hflight hcontract hp hq
  obtain ⟨k, hk⟩ := effK_of_kselLegal hksel (bitLen (s.limbs .b 4) 4)
  have hl : effL Config.clampLcount s.internals.lcount = some 4 := by
    rw [hlcount]
    exact effL_legal (by decide) (by decide) _
  have hodd := modulusEven_of_inContract (by decide) hcontract
  have hrun : (modexpRun 4 k s).r = (modexpRun 4 1 s).r :=
    resultIndependentOfWindowWidth s.n0 _ _ _ _ k 1 (by simp) (by simp) (by simp) (effK_range hk) (by decide) hcontract
  cases (exec_modexp4_odd hk hodd).symm.trans hp
  cases (exec_modexpg_odd hl hodd).symm.trans hq
  rw [modexpFinish_bankRes, modexpFinish_bankRes, modexpResult_of_defined hflight (.inr hcontract),
    modexpResult_of_defined hflight (.inr hcontract), hrun]

end Sys2Proof.Machine
end

section
/-! PROOFS. Error codes, error completion, bus errors and the interrupt (spec/60_exceptions.md R200 to R210). -/

namespace Sys2Proof

/-! ### Illegal command words -/

/-- The words of R83 decode to ILLEGAL: a word that decodes to a command is its encoding, which is none of them. -/
theorem decode_illegal {v : Word} (h : v.toNat / 16 ≠ 0 ∨ v.toNat % 16 = 0 ∨ 5 ≤ v.toNat % 16) :
    decode v = .illegal := by
  cases hv : decode v with
  | illegal => rfl
  | instr i =>
    obtain rfl := (eq_encode_iff v i).2 ((decode_eq_instr_iff v i).1 hv)
    revert h
    cases i <;> decide

end Sys2Proof

namespace Sys2Proof.Machine

/-- The ERRCODE field of STATUS holds the 4-bit code (R24, R200). -/
theorem statusWord_errCode (s : State) : s.statusWord.extractLsb' 4 4 = s.errCode.toBits := by
  obtain ⟨-, -, -, -, hcode, -⟩ := statusLayoutAndClear s 0
  exact hcode

/-- The turn of a busy engine that latched ILLEGAL is an error completion with ILLEGAL_OP (R204). -/
theorem engineTurn_illegal {s : State} (hbusy : s.busy = true) (hop : s.internals.op = .illegal) :
    engineTurn s = .next (s.finish .illegalOp) := by
  simp [engineTurn, illegalStep, (busy_eq_true s).1 hbusy, hop]

/-- An idle engine accepts whatever is written to CMD (R240). -/
theorem writeTarget_cmd_idle {s : State} (hidle : s.busy = false) (v : Word) :
    s.writeTarget .cmd v = s.accept (decode v) := by
  simp [State.writeTarget, State.writeCmd, hidle]

/-- Settles O3: such a word decodes to ILLEGAL, whose completion changes STATUS alone. -/
theorem illegalWordCompletesWithIllegalOp : Obligations.IllegalWordCompletesWithIllegalOp := by
  intro s v hv
  have hdecode := decode_illegal hv
  refine ⟨fun hidle => ?_, fun hbusy hop => ?_⟩
  · rw [writeTarget_cmd_idle hidle, hdecode]
    exact ⟨rfl, rfl⟩
  · exact ⟨_, engineTurn_illegal hbusy (hop.trans hdecode), rfl, statusWord_errCode _, rfl, rfl, rfl, rfl, rfl, rfl,
      rfl⟩

/-! ### The checks and their order -/

/-- BAD_LCOUNT by the numbers: LCOUNT is 0, or above 16 and not clamped (R201). -/
theorem effL_eq_none_iff (clamp : Bool) (f : BitVec 5) :
    effL clamp f = none ↔ f.toNat = 0 ∨ (17 ≤ f.toNat ∧ clamp = false) := by
  by_cases hzero : f.toNat = 0
  · simp [effL_zero hzero, hzero]
  · by_cases hlegal : f.toNat ≤ 16
    · rw [effL_legal (by omega) hlegal]
      simp only [reduceCtorEq, false_iff]
      omega
    · have hover : 17 ≤ f.toNat := by omega
      rw [effL_oversize hover]
      cases clamp <;> simp [hover, hzero]

/-- BAD_KSEL by the numbers, whatever the exponent: KSEL is 2, or above 5 (R202). -/
theorem effK_eq_none_iff (f : BitVec 4) (expLen : Nat) :
    effK f expLen = none ↔ f.toNat = 2 ∨ 6 ≤ f.toNat := by
  by_cases hzero : f.toNat = 0
  · simp [effK_zero hzero, hzero]
  · have hlegal := kselLegal_iff f
    rw [effK_nonzero hzero]
    cases hk : kselLegal f
    · simp only [hk, Bool.false_eq_true, false_iff] at hlegal
      simp only [Bool.false_eq_true, if_false, true_iff]
      omega
    · simp only [hk, true_iff] at hlegal
      simp only [if_true, reduceCtorEq, false_iff]
      omega

/-- EVEN_MODULUS by the number: N[0] is even (R203). -/
theorem modulusEven_iff (s : State) : s.modulusEven = true ↔ (s.limb .n 0).toNat % 2 = 0 := by
  simp [State.modulusEven, BitVec.getLsbD]

/-- The code of the first of two checks that fails (R207). -/
def firstFailing (p : Prop) [Decidable p] (c : ErrorCode) (q : Prop) [Decidable q] (d : ErrorCode) : ErrorCode :=
  if p then c else if q then d else .none

/-- The first failing check case by case, for each condition in any form. -/
theorem firstFailing_cases {p q p' q' : Prop} [Decidable p] [Decidable q] (hp : p ↔ p') (hq : q ↔ q')
    (c d : ErrorCode) :
    (p' → firstFailing p c q d = c) ∧ (¬ p' → q' → firstFailing p c q d = d) ∧
    (¬ p' → ¬ q' → firstFailing p c q d = .none) := by
  rw [← hp, ← hq]
  exact ⟨fun h => if_pos h, fun h h' => (if_neg h).trans (if_pos h'), fun h h' => (if_neg h).trans (if_neg h')⟩

/-- An exponentiation that passed its checks reports no error. -/
@[simp] theorem modexpFinish_errCode (site : Config.DrawSite) (l k : Nat) (s : State) :
    (modexpFinish site l k s).errCode = .none := by
  simp [modexpFinish]

/-- MONTMUL checks LCOUNT, then the modulus (R121). -/
theorem montmulStep_errCode (s : State) : (montmulStep s).errCode =
    firstFailing (effL Config.clampLcount s.internals.lcount = none) .badLcount
      (s.modulusEven = true) .evenModulus := by
  unfold montmulStep firstFailing
  cases hl : effL Config.clampLcount s.internals.lcount with
  | none => simp
  | some l => cases he : s.modulusEven <;> simp

/-- BITLEN checks LCOUNT, then KSEL (R145). The exponent's length does not decide whether KSEL is legal, so the second
check may be stated at any length. -/
theorem bitlenStep_errCode (s : State) (expLen : Nat) : (bitlenStep s).errCode =
    firstFailing (effL Config.clampLcount s.internals.lcount = none) .badLcount
      (effK s.internals.ksel expLen = none) .badKsel := by
  unfold bitlenStep firstFailing
  cases hl : effL Config.clampLcount s.internals.lcount with
  | none => simp
  | some l =>
    have hlen : effK s.internals.ksel expLen = none ↔ effK s.internals.ksel (bitLen (s.limbs .b l) l) = none :=
      (effK_eq_none_iff _ _).trans (effK_eq_none_iff _ _).symm
    simp only [hlen]
    cases hk : effK s.internals.ksel (bitLen (s.limbs .b l) l) <;> simp

/-- MODEXP4 checks KSEL, then the modulus (R180). -/
theorem modexp4Step_errCode (s : State) : (modexp4Step s).errCode =
    firstFailing (effK s.internals.ksel (bitLen (s.limbs .b 4) 4) = none) .badKsel
      (s.modulusEven = true) .evenModulus := by
  unfold modexp4Step firstFailing
  cases hk : effK s.internals.ksel (bitLen (s.limbs .b 4) 4) with
  | none => simp
  | some k => cases he : s.modulusEven <;> simp

/-- MODEXPG checks LCOUNT, then the modulus (R182). -/
theorem modexpgStep_errCode (s : State) : (modexpgStep s).errCode =
    firstFailing (effL Config.clampLcount s.internals.lcount = none) .badLcount
      (s.modulusEven = true) .evenModulus := by
  unfold modexpgStep firstFailing
  cases hl : effL Config.clampLcount s.internals.lcount with
  | none => simp
  | some l => cases he : s.modulusEven <;> simp

/-- Settles O31: each command reports its first failing check, and each check is its condition by the numbers. -/
theorem errorCodesByPriority : Obligations.ErrorCodesByPriority := by
  intro s
  have hlcount := effL_eq_none_iff Config.clampLcount s.internals.lcount
  have hksel := effK_eq_none_iff s.internals.ksel
  have heven := modulusEven_iff s
  refine ⟨⟨_, rfl, ?_⟩, ⟨_, rfl, ?_⟩, ⟨_, rfl, ?_⟩, ⟨_, rfl, ?_⟩,
    fun hbusy hop => ⟨_, engineTurn_illegal hbusy hop, rfl⟩⟩
  · rw [montmulStep_errCode]
    exact firstFailing_cases hlcount heven _ _
  · rw [bitlenStep_errCode s 0]
    exact firstFailing_cases hlcount (hksel 0) _ _
  · rw [modexp4Step_errCode]
    exact firstFailing_cases (hksel _) heven _ _
  · rw [modexpgStep_errCode]
    exact firstFailing_cases hlcount heven _ _

/-! ### Error completion -/

/-- Settles O32: the shape of a completion, which with an error replaces no output. -/
theorem errorCompletionKeepsOutputs : Obligations.ErrorCompletionKeepsOutputs := by
  intro s hbusy
  rcases engineTurn_cases s with ⟨hidle, _⟩ | ⟨_, i, _, he⟩ | ⟨_, _, he⟩
  · simp [hbusy] at hidle
  · obtain ⟨f, c, res, e, k, q, m, hx, herror⟩ := exec_shape i s
    refine ⟨_, he.trans hx, rfl, rfl, rfl, rfl, rfl, fun hc => ?_⟩
    obtain ⟨rfl, rfl, rfl, rfl, rfl⟩ := herror hc
    rfl
  · exact ⟨_, he, rfl, rfl, rfl, rfl, rfl, fun _ => rfl⟩

/-! ### Bus errors -/

/-- The one supported access is a single access of 8 bytes (R61). -/
theorem supported_iff (size : AccessSize) : size.supported = true ↔ size = .bytes 8 := by
  cases size <;> simp [AccessSize.supported]

/-- The three causes of a bus error, with the reserved offsets by their ranges (R21, R205). -/
theorem busError_iff (off : Nat) (size : AccessSize) : busError off size = true ↔
    size ≠ .bytes 8 ∨ off % 8 ≠ 0 ∨ (0x040 ≤ off ∧ off < 0x100) ∨ 0x380 ≤ off := by
  rw [← targetAt_eq_reserved_iff, ne_eq, ← supported_iff]
  simp [busError, or_assoc]

/-- Settles O55: each cause is a bus error, which answers and does nothing else. -/
theorem busErrorsHaveNoEffect : Obligations.BusErrorsHaveNoEffect := by
  intro s off size v rest hoff hcause
  have herror := (busError_iff off size).2 hcause
  rw [step_write s hoff, step_read s hoff]
  simp only [State.writeAt, State.readAt, if_pos herror, and_self]

/-! ### The interrupt -/

/-- A completion raises the interrupt exactly where CFG enables it (R210). -/
@[simp] theorem irq_finish (c : ErrorCode) (s : State) : (s.finish c).irq = s.irqEn := rfl

/-- A write of 1 to DONE drives the interrupt to 0, and a write of 0 keeps it (R210, R211). -/
theorem irq_clearStatus (v : Word) (s : State) : (s.clearStatus v).irq = (s.irq && !v.getLsbD 1) :=
  Bool.and_right_comm _ _ _

/-- A write of CFG gates DONE by the new IRQEN (R210). -/
theorem irq_writeCfg (v : Word) (s : State) : (s.writeCfg v).irq = (s.done && v.getLsbD 16) := rfl

/-- Settles O58: each event by what it does to DONE and IRQEN. -/
theorem interruptFollowsDone : Obligations.InterruptFollowsDone := by
  intro s v d
  have hstatus : (s.writeTarget .status v).irq = (s.irq && !v.getLsbD 1) := irq_clearStatus v s
  refine ⟨Bool.and_eq_true_iff, fun hack => ?_, fun hkeep => ?_, fun hidle hdisable => ?_, rfl, rfl, fun i => ?_⟩
  · rw [hstatus, hack, Bool.not_true, Bool.and_false]
  · rw [hstatus, hkeep, Bool.not_false, Bool.and_true]
  · rw [writeTarget_cfg_idle hidle, irq_writeCfg, hdisable, Bool.and_false]
  · obtain ⟨f, c, res, e, k, q, m, hx, _⟩ := exec_shape i s
    exact ⟨_, hx, irq_finish c _⟩

end Sys2Proof.Machine
end

section
/-! PROOFS. Reset, acceptance and the hazards of a running command (spec/70_reset_and_hazards.md R230 to R246). -/

namespace Sys2Proof.Machine

/-! ### What host events leave of the engine -/

/-- What a host event leaves of the engine (R232): its phase, everything it latched and ERRCODE, with DONE not set and no
event taken from the schedule. -/
structure State.Continues (s t : State) : Prop where
  busy : t.busy = s.busy
  internals : t.internals = s.internals
  done : t.done = true → s.done = true
  errCode : t.errCode = s.errCode
  schedule : t.schedule = s.schedule

/-- A host read leaves the engine running. -/
theorem readAt_continues (off : Nat) (size : AccessSize) (s : State) : s.Continues (s.readAt off size) := by
  rcases readAt_cases off size s with ⟨_, hr⟩ | ⟨_, hr⟩ <;> rw [hr] <;> exact ⟨rfl, rfl, id, rfl, rfl⟩

section
variable {s : State} (hbusy : s.busy = true)
include hbusy

/-- No write of a target ends a running command, CMD among them (R232, R245). -/
theorem writeTarget_continues (t : Target) (v : Word) : s.Continues (s.writeTarget t v) := by
  rcases writeTarget_cases s t v with hw | ⟨_, hw⟩ | ⟨_, hw⟩ | ⟨hidle, _⟩
  · rw [hw]; exact ⟨rfl, rfl, id, rfl, rfl⟩
  · rw [hw]; exact ⟨rfl, rfl, id, rfl, rfl⟩
  · rw [hw]; exact ⟨rfl, rfl, by simp +contextual, rfl, rfl⟩
  · simp [hbusy] at hidle

/-- No host write ends a running command. -/
theorem writeAt_continues (off : Nat) (size : AccessSize) (v : Word) : s.Continues (s.writeAt off size v) := by
  rcases writeAt_cases off size v s with ⟨_, hw⟩ | ⟨_, hw⟩ <;> rw [hw]
  · exact ⟨rfl, rfl, id, rfl, rfl⟩
  · have h := writeTarget_continues hbusy (targetAt off) v
    exact ⟨h.busy, h.internals, h.done, h.errCode, h.schedule⟩

/-- No landing write ends a running command. -/
theorem land_continues (i : Nat) : s.Continues (s.land i) := by
  rcases land_cases i s with ⟨_, hl⟩ | ⟨w, _, hl⟩ <;> rw [hl]
  · exact ⟨rfl, rfl, id, rfl, rfl⟩
  · have htaken : (s.withFabric (s.fabric.take i)).busy = true := hbusy
    have h := writeAt_continues htaken w.off w.size w.data
    exact ⟨h.busy, h.internals, h.done, h.errCode, h.schedule⟩

/-- Everything a step of a busy engine can be: the engine's turn, the reset input, or a host event that leaves the
engine running (R232). -/
theorem step_busy_cases {t : State} (h : step s = .next t) :
    (s.engineNext = true ∧ engineTurn (s.withSchedule s.schedule.tail) = .next t) ∨
    (s.resetNext = true ∧ t = (s.withSchedule s.schedule.tail).resetInput) ∨
    (s.engineNext = false ∧ s.resetNext = false ∧ (s.withSchedule s.schedule.tail).Continues t) := by
  have hbusy' : ∀ rest, (s.withSchedule rest).busy = true := fun _ => hbusy
  rcases step_cases h with ⟨hs, ht⟩ | ⟨_, size, rest, off, hs, _, _, rfl⟩ | ⟨_, size, v, rest, off, hs, _, _, rfl⟩ |
    ⟨rest, hs, rfl⟩ | ⟨_, size, v, rest, off, hs, _, _, rfl⟩ | ⟨i, rest, hs, rfl⟩
  · refine .inl ⟨?_, ht⟩
    rcases hs with hs | ⟨_, hs⟩ <;> simp [State.engineNext, hs]
  all_goals rw [State.engineNext, State.resetNext, hs]
  · exact .inr (.inr ⟨rfl, rfl, readAt_continues off size _⟩)
  · exact .inr (.inr ⟨rfl, rfl, writeAt_continues (hbusy' rest) off size v⟩)
  · exact .inr (.inl ⟨rfl, rfl⟩)
  · exact .inr (.inr ⟨rfl, rfl, rfl, rfl, id, rfl, rfl⟩)
  · exact .inr (.inr ⟨rfl, rfl, land_continues (hbusy' rest) i⟩)

end

/-- Settles O40: a step of a busy engine that is neither its turn nor a reset is a host event. -/
theorem hostAccessNeverEndsCommand : Obligations.HostAccessNeverEndsCommand := by
  intro s t hstep hbusy hengine hreset
  rcases step_busy_cases hbusy hstep with ⟨he, _⟩ | ⟨hr, _⟩ | ⟨_, _, h⟩
  · simp [hengine] at he
  · simp [hreset] at hr
  · exact ⟨h.busy.trans hbusy, h.internals, h.done, h.errCode⟩

/-! ### Writes while BUSY -/

/-- A command without an effective limb count fails with BAD_LCOUNT (R201). -/
theorem exec_of_no_limbCount {i : Instr} {s : State}
    (h : limbCountOf Config.clampLcount (.instr i) s.internals.lcount = none) :
    exec i s = .next (s.finish .badLcount) := by
  cases i with
  | montmul => simp only [limbCountOf] at h; simp [exec, execMontmul, montmulStep, h]
  | bitlen => simp only [limbCountOf] at h; simp [exec, execBitlen, bitlenStep, h]
  | modexp4 => cases h
  | modexpg => simp only [limbCountOf] at h; simp [exec, execModexpg, modexpgStep, h]

/-- States that agree at every width give equal outputs and codes, at an effective limb count and without one. -/
theorem exec_agree {s t : State} (h : ∀ l, State.AgreeAt l s t) (i : Instr) :
    ∃ p q, exec i s = .next p ∧ exec i t = .next q ∧ p.outputs = q.outputs ∧ p.errCode = q.errCode := by
  cases hl : limbCountOf Config.clampLcount (.instr i) s.internals.lcount with
  | none =>
    have ht : limbCountOf Config.clampLcount (.instr i) t.internals.lcount = none := by rw [(h 0).internals, hl]
    exact ⟨_, _, exec_of_no_limbCount hl, exec_of_no_limbCount ht, (h 0).outputs.symm, rfl⟩
  | some l => exact (h l).exec hl

/-- No command reads DONE or BUSYERR. -/
theorem agreeAt_flags (s : State) (d b : Bool) (l : Nat) : State.AgreeAt l s { s with done := d, busyErr := b } :=
  ⟨rfl, rfl, rfl, rfl, rfl, fun bk _ => limbs_congr (by cases bk <;> rfl) rfl l⟩

/-- A write of a target of a busy engine reaches no more than DONE and BUSYERR, so the running command does not see it
(R245). -/
theorem agreeAt_writeTarget_busy {s : State} (hbusy : s.busy = true) (t : Target) (v : Word) (l : Nat) :
    State.AgreeAt l s (s.writeTarget t v) := by
  rcases writeTarget_cases s t v with hw | ⟨_, hw⟩ | ⟨_, hw⟩ | ⟨hidle, _⟩
  · rw [hw]; exact agreeAt_flags s s.done s.busyErr l
  · rw [hw]; exact agreeAt_flags s s.done true l
  · rw [hw]; exact agreeAt_flags s _ _ l
  · simp [hbusy] at hidle

/-- A busy engine drops a write of CMD (R245). -/
theorem writeTarget_cmd_busy {s : State} (hbusy : s.busy = true) (v : Word) : s.writeTarget .cmd v = s.dropWrite := by
  simp [State.writeTarget, State.writeCmd, hbusy]

/-- Settles O41: operand targets, STATUS and read-only targets by their rules, and the running command because it reads
neither flag that a write can reach. -/
theorem writesWhileBusyAreDropped : Obligations.WritesWhileBusyAreDropped := by
  intro s v hbusy
  refine ⟨fun t ht => ?_, fun bk j hres => ?_, rfl,
    fun t ht => writeTarget_readOnly (by fin_cases ht <;> rfl) v s, fun _ => rfl,
    fun i t => exec_agree (agreeAt_writeTarget_busy hbusy t v) i⟩
  · fin_cases ht
    · exact writeTarget_cmd_busy hbusy v
    · exact writeTarget_operand_busy rfl hbusy v
    · exact writeTarget_operand_busy rfl hbusy v
  · exact writeTarget_operand_busy (by simpa [Target.isOperand] using hres) hbusy v

/-! ### The engine's turn -/

/-- When the engine's turn is next, the step is that turn (R241). -/
theorem step_of_engineNext {s : State} (h : s.engineNext = true) :
    step s = engineTurn (s.withSchedule s.schedule.tail) := by
  unfold step nextPoint
  cases hs : s.schedule with
  | nil =>
    have hself : s.withSchedule [] = s := hs ▸ withSchedule_self s
    rw [List.tail_nil, hself]
  | cons e rest =>
    obtain rfl : e = .engine := by cases e <;> simp_all [State.engineNext]
    rfl

/-- The turn of a busy engine runs the command it latched (R241). -/
theorem engineTurn_instr {s : State} {i : Instr} (hbusy : s.busy = true) (hop : s.internals.op = .instr i) :
    engineTurn s = exec i s := by
  simp [engineTurn, (busy_eq_true s).1 hbusy, hop]

/-- Settles O35: such a step is the engine's turn. -/
theorem stepRunsLatchedCommand : Obligations.StepRunsLatchedCommand := by
  intro s i hbusy hop hengine
  have hbusy' : (s.withSchedule s.schedule.tail).busy = true := hbusy
  rw [step_of_engineNext hengine, engineTurn_instr hbusy' hop]

/-- A table word that names a command is a word that decodes to it. -/
theorem decode_of_decodeTableWord {nbits w : Nat} {i : Instr} (h : decodeTableWord nbits w = some i) :
    decode (commandWord nbits w) = .instr i := by
  unfold decodeTableWord at h
  cases hd : decode (commandWord nbits w) <;> simp_all

/-- Settles O36: the engine's turn comes first after the placing. -/
theorem fetchedWordRunsNext : Obligations.FetchedWordRunsNext := by
  intro s nbits w i h
  rw [State.withFetchWord, decode_of_decodeTableWord h, step_engine]
  exact engineTurn_instr rfl rfl

/-! ### Bounded progress -/

/-- The engine's turn answers a next state, whether it is idle or completes a command (R241). -/
theorem engineTurn_next (s : State) : ∃ t, engineTurn s = .next t := by
  cases hb : s.busy
  · exact ⟨s, engineTurn_idle hb⟩
  · obtain ⟨t, ht, -⟩ := errorCompletionKeepsOutputs s hb
    exact ⟨t, ht⟩

/-- A host access inside the window answers a next state. -/
theorem hostAccess_inWindow {addr : Nat} (h : (windowOffset addr).isSome = true) (act : Nat → State) :
    ∃ t, hostAccess addr act = .next t := by
  obtain ⟨off, hoff⟩ := Option.isSome_iff_exists.1 h
  exact ⟨act off, by simp only [hostAccess, hoff]⟩

/-- An event that is no access outside the window answers a next state. -/
theorem runEvent_inWindow {e : Event} (h : e.inWindow = true) (s : State) : ∃ t, runEvent e s = .next t := by
  cases e with
  | read | write | issue => exact hostAccess_inWindow h _
  | engine => exact engineTurn_next s
  | reset | land => exact ⟨_, rfl⟩

/-- A step answers a next state where every scheduled access lies in the window. -/
theorem step_inWindow {s : State} (h : s.schedule.all Event.inWindow = true) : ∃ t, step s = .next t := by
  unfold step nextPoint
  cases hs : s.schedule with
  | nil => exact engineTurn_next s
  | cons e rest =>
    rw [hs, List.all_cons, Bool.and_eq_true] at h
    exact runEvent_inWindow h.1 _

/-- A step of a busy engine ends its command, with DONE unless by a reset, or is a host event, and takes one event off
the schedule. -/
theorem step_busy_progress {s : State} (hbusy : s.busy = true) (h : s.schedule.all Event.inWindow = true) :
    ∃ t, step s = .next t ∧
      ((t.busy = false ∧ (s.resetNext = false → t.done = true)) ∨
       (s.engineNext = false ∧ t.busy = true ∧ t.schedule = s.schedule.tail)) := by
  obtain ⟨t, hstep⟩ := step_inWindow h
  refine ⟨t, hstep, ?_⟩
  rcases step_busy_cases hbusy hstep with ⟨_, ht⟩ | ⟨hreset, rfl⟩ | ⟨hengine, _, hc⟩
  · obtain ⟨u, hu, hdone, hidle, -⟩ := errorCompletionKeepsOutputs (s.withSchedule s.schedule.tail) hbusy
    cases hu.symm.trans ht
    exact .inl ⟨hidle, fun _ => hdone⟩
  · exact .inl ⟨rfl, fun hno => by simp [hreset] at hno⟩
  · exact .inr ⟨hengine, hc.busy.trans hbusy, hc.schedule⟩

/-- No reset is next where none is scheduled. -/
theorem resetNext_of_not_mem {s : State} (h : Event.reset ∉ s.schedule) : s.resetNext = false := by
  unfold State.resetNext
  split
  next rest hs => simp [hs] at h
  next => rfl

/-- A run of one step. -/
theorem run_one {s t : State} (h : step s = .next t) : Sys2Proof.core.run 1 s = .next t := run_next h 0

/-- A busy engine ends its command within the schedule or one step after it, and completes it where no reset is
scheduled (R241, R242): by induction on the events still to come. -/
theorem run_busy_ends {s : State} (hbusy : s.busy = true) (hwin : s.schedule.all Event.inWindow = true) :
    ∃ (k : Nat) (t : State), 1 ≤ k ∧ k ≤ s.schedule.length + 1 ∧ Sys2Proof.core.run k s = .next t ∧
      t.busy = false ∧ (Event.reset ∉ s.schedule → t.done = true) := by
  induction hs : s.schedule generalizing s with
  | nil =>
    obtain ⟨t, hstep, ⟨hidle, hdone⟩ | ⟨hengine, _, _⟩⟩ := step_busy_progress hbusy hwin
    · exact ⟨1, t, le_rfl, le_rfl, run_one hstep, hidle, fun _ => hdone (by simp [State.resetNext, hs])⟩
    · simp [State.engineNext, hs] at hengine
  | cons e rest ih =>
    obtain ⟨t, hstep, ⟨hidle, hdone⟩ | ⟨_, htbusy, htail⟩⟩ := step_busy_progress hbusy hwin
    · exact ⟨1, t, le_rfl, by omega, run_one hstep, hidle, fun hno => hdone (resetNext_of_not_mem (hs ▸ hno))⟩
    · rw [hs, List.tail_cons] at htail
      obtain ⟨k, u, hk, hle, hrun, hidle, hdone⟩ := ih htbusy (by simp_all) htail
      exact ⟨k + 1, u, by omega, by simpa using hle, (run_next hstep k).trans hrun, hidle,
        fun hno => hdone fun hmem => hno (List.mem_cons_of_mem e hmem)⟩

/-- Settles O42: an idle engine needs no step, and a busy one ends its command. -/
theorem busyEngineCompletes : Obligations.BusyEngineCompletes := by
  intro s hwin
  refine ⟨?_, fun hbusy hno => ?_⟩
  · cases hb : s.busy
    · exact ⟨0, s, Nat.zero_le _, rfl, hb⟩
    · obtain ⟨k, t, _, hle, hrun, hidle, _⟩ := run_busy_ends hb hwin
      exact ⟨k, t, hle, hrun, hidle⟩
  · obtain ⟨k, t, hk, hle, hrun, hidle, hdone⟩ := run_busy_ends hbusy hwin
    exact ⟨k, t, hk, hle, hrun, hidle, hdone hno⟩

/-! ### Acceptance and operand writes in flight -/

/-- An 8-byte write at the offset of CMD is accepted by an idle engine, and answers (R240). -/
theorem writeAt_cmd_idle {s : State} (hidle : s.busy = false) (v : Word) :
    s.writeAt 0x008 (.bytes 8) v = (s.accept (decode v)).respond .writeDone := by
  have hok : busError 0x008 (.bytes 8) = false := busError_aligned rfl (by decide)
  have htarget : targetAt 0x008 = .cmd := rfl
  rw [State.writeAt, hok, htarget, writeTarget_cmd_idle hidle]
  rfl

/-- Settles O37: the step is the acceptance and its answer. -/
theorem commandWriteIsAccepted : Obligations.CommandWriteIsAccepted := by
  intro s v rest hidle
  have hidle' : (s.withSchedule rest).busy = false := hidle
  refine ⟨_, step_write s (by decide) _ v rest, ?_⟩
  rw [writeAt_cmd_idle hidle']
  exact ⟨rfl, rfl, rfl, rfl, rfl, rfl, rfl, rfl, rfl, rfl, rfl, rfl, rfl⟩

/-- A write that the fabric holds lands as a host write does there, and leaves the fabric (R72, R246). -/
theorem land_of_getElem? {s : State} {i : Nat} {w : PostedWrite} (h : s.fabric[i]? = some w) :
    s.land i =
      ((s.withFabric (s.fabric.take i)).writeAt w.off w.size w.data).withFabric (s.fabric.eraseIdx i) := by
  simp only [State.land, h]

/-- While the engine is busy, an operand write at its offset is dropped, and answers without an error (R245). -/
theorem writeAt_operand_busy {s : State} {w : PostedWrite} (hbusy : s.busy = true) (hw : w.isOperand = true) :
    s.writeAt w.off w.size w.data = s.dropWrite.respond .writeDone := by
  obtain ⟨hok, hoperand⟩ := isOperand_target hw
  rw [State.writeAt, hok, writeTarget_operand_busy hoperand hbusy]
  rfl

/-- A CMD write that lands on an idle engine is an acceptance that sees the writes issued before it (R240, R246). -/
theorem land_cmd_idle {s : State} {earlier later : List PostedWrite} {v : Word} (hidle : s.busy = false)
    (hfabric : s.fabric = earlier ++ { off := 0x008, size := .bytes 8, data := v } :: later) :
    s.land earlier.length =
      (((s.withFabric earlier).accept (decode v)).respond .writeDone).withFabric (earlier ++ later) := by
  have hidle' : (s.withFabric earlier).busy = false := hidle
  have hget : s.fabric[earlier.length]? = some { off := 0x008, size := .bytes 8, data := v } := by simp [hfabric]
  rw [land_of_getElem? hget, hfabric, List.take_left, writeAt_cmd_idle hidle',
    List.eraseIdx_append_of_length_le le_rfl, Nat.sub_self, List.eraseIdx_cons_zero]

/-- An operand write that lands on a busy engine is dropped (R245). -/
theorem land_operand_busy {s : State} {i : Nat} {w : PostedWrite} (hbusy : s.busy = true)
    (hget : s.fabric[i]? = some w) (hw : w.isOperand = true) :
    s.land i = (s.dropWrite.respond .writeDone).withFabric (s.fabric.eraseIdx i) := by
  have hbusy' : (s.withFabric (s.fabric.take i)).busy = true := hbusy
  rw [land_of_getElem? hget, writeAt_operand_busy hbusy' hw]
  rfl

/-- Settles O60: the landing CMD write by its acceptance, and the landing operand write by its drop. -/
theorem operandWritesInFlight : Obligations.OperandWritesInFlight := by
  refine ⟨fun s earlier later v rest hidle hfabric => ⟨_, step_land s _ rest, ?_⟩,
    fun s i w rest hbusy hget hw => ⟨_, step_land s i rest, ?_⟩⟩
  · rw [land_cmd_idle (s := s.withSchedule rest) hidle hfabric]
    exact ⟨rfl, rfl, rfl, rfl, rfl, rfl, rfl⟩
  · rw [land_operand_busy (s := s.withSchedule rest) hbusy hget hw]
    exact ⟨hbusy, rfl, rfl, rfl, rfl, rfl, rfl, rfl⟩

/-! ### Reset -/

/-- Settles O43: the registers by evaluation, the limbs because none is written. -/
theorem resetInputResets : Obligations.ResetInputResets := by
  intro s rest
  have hunwritten : ∀ bk i, (s.withSchedule rest).resetInput.isWritten bk i = false := fun bk i =>
    isWritten_reset_bank (by cases bk <;> rfl) i
  have hstatus : (s.withSchedule rest).resetInput.statusWord = 0 := by simp [State.statusWord, ErrorCode.toBits]
  have hcfg : (s.withSchedule rest).resetInput.cfgWord = 0 := by simp [State.cfgWord]
  have hopCount : (s.withSchedule rest).resetInput.opCountWord = 0 := by simp [State.opCountWord]
  exact ⟨_, step_reset s rest, hstatus, hcfg, rfl, rfl, rfl, hopCount, rfl, rfl, rfl, rfl, hunwritten,
    fun bk i hi => limb_of_unwritten hi (hunwritten bk i), rfl, rfl⟩

/-- Settles O45: the reset state is idle, with the outputs that the reset input leaves. -/
theorem resetMeetsInvariant : Obligations.ResetMeetsInvariant :=
  .of_idle rfl rfl ((inv_resetInput State.reset).outputsOk.congr rfl)

end Sys2Proof.Machine
end
